-- ==== Sys2Proof/Word.lean ====
section
/-! DEFINITION. The words of the machine: a byte and a 32-bit word (10_state.md R33, 20_memory.md R81). -/

namespace Sys2Proof

/-- A byte: 8 bits, unsigned, 0..255 (00_scope.md R13). -/
abbrev Byte := BitVec 8

/-- A 32-bit word: a command word, a register as the host sees it, an entry of PHRASE_MEM or CHARLIST_MEM
(30_encoding.md R110, 10_state.md R33, R54, R56). -/
abbrev Word := BitVec 32

end Sys2Proof
end

