-- ==== Sys2Proof/Syntax.lean ====
section
/-! DEFINITION. The commands of the block: one constructor per row of the opcode map (30_encoding.md R113). -/

namespace Sys2Proof

/-- A command of the block. Each row of the opcode map is one constructor; an illegal word is no command and is
refused by the decoder (30_encoding.md R113 to R115). -/
inductive Instr where
  /-- QTOTAL: the total content bytes (40_planner.md R156). -/
  | qtotal
  /-- QPAD: the header padding (40_planner.md R157). -/
  | qpad
  /-- QCOUNT: the packet count (40_planner.md R158). -/
  | qcount
  /-- GEN: the frame of packet `index`, "an unsigned integer 0 .. 65535" (30_encoding.md R112, 41_chunker.md R180). -/
  | gen (index : Nat)
deriving DecidableEq, Repr

end Sys2Proof
end

