-- ==== Sys2Proof/WellFormed.lean ====
section
/-! DEFINITION. Which terms of Instr are commands: the index of GEN must fit ARG (30_encoding.md R112, R118). -/

namespace Sys2Proof

/-- A command is well formed when its operand fits the 16-bit field ARG: "An index above 65535 is refused by the
assembler (it does not fit ARG)" (30_encoding.md R118). The queries have no operand. -/
def Instr.wellFormed : Instr → Bool
  | .qtotal => true
  | .qpad => true
  | .qcount => true
  | .gen index => decide (index ≤ 65535)

end Sys2Proof
end

