-- ==== Sys2Proof/Decode.lean ====
section
/-! DEFINITION. Decoding and encoding of command words (30_encoding.md R110 to R115, R118). -/

namespace Sys2Proof

/-- `w[hi:lo]`: the field of `w` from bit `hi` down to bit `lo` inclusive, zero-extended (00_scope.md R13). -/
def bitField (w : Word) (hi lo : Nat) : Nat :=
  w.toNat / 2 ^ lo % 2 ^ (hi + 1 - lo)

/-- Why a word is illegal (30_encoding.md R115). All three reasons end in the one error ILLEGAL_CMD. -/
inductive IllegalWord where
  /-- The field RSV (bits 27:16) is not 0. -/
  | reservedBits
  /-- The opcode is 0x0 or one of 0x5 to 0xF. -/
  | reservedOpcode
  /-- QTOTAL, QPAD or QCOUNT with ARG (bits 15:0) not 0. -/
  | queryWithOperand
deriving DecidableEq, Repr

/-- Decode of a command word (30_encoding.md R114), total on the 32-bit words; what R114 calls ILLEGAL is refused with
the reason's name. -/
def decode (w : Word) : Except IllegalWord Instr :=
  let op := bitField w 31 28
  let rsv := bitField w 27 16
  let arg := bitField w 15 0
  if rsv ≠ 0 then .error .reservedBits
  else if op = 1 then if arg = 0 then .ok .qtotal else .error .queryWithOperand
  else if op = 2 then if arg = 0 then .ok .qpad else .error .queryWithOperand
  else if op = 3 then if arg = 0 then .ok .qcount else .error .queryWithOperand
  else if op = 4 then .ok (.gen arg)
  else .error .reservedOpcode

/-- The field OP of a command (30_encoding.md R113). -/
def Instr.opcode : Instr → Nat
  | .qtotal => 1
  | .qpad => 2
  | .qcount => 3
  | .gen _ => 4

/-- The field ARG of a command: the packet index for GEN, 0 otherwise (30_encoding.md R111). -/
def Instr.arg : Instr → Nat
  | .qtotal => 0
  | .qpad => 0
  | .qcount => 0
  | .gen index => index

/-- The command word `(OP << 28) | index` with RSV = 0 (30_encoding.md R118). The two fields do not overlap for a
well-formed command, so the bitwise or is written as a sum. -/
def encode (i : Instr) : Word :=
  BitVec.ofNat 32 (i.opcode * 2 ^ 28 + i.arg)

/-- The command the decoder reads from a table word. A command is one 32-bit word, so the `nbits` table bits of `w` are
the whole word and the bits above them are 0. -/
def decodeTableWord (nbits w : Nat) : Option Instr :=
  match decode (BitVec.ofNat 32 (w % 2 ^ nbits)) with
  | .ok i => some i
  | .error _ => none

end Sys2Proof
end

