-- ==== Sys2Proof/Config.lean ====
section
/-! DEFINITION. The constants of the source, the parameters of the block and the values the spec leaves free
(00_scope.md R6 to R12, 93_implementation_defined.md). -/

namespace Sys2Proof

/-- BODY_MAX: bytes of sub-packet body per packet (00_scope.md R6). -/
def Config.bodyMax : Nat := 128

/-- PAD_TEXT (00_scope.md R6). -/
def Config.padText : Nat := 107

/-- PAD_IMAGE (00_scope.md R6). -/
def Config.padImage : Nat := 26

/-- PAD_ANIM (00_scope.md R6). -/
def Config.padAnim : Nat := 27

/-- ANIM_SPEED = 500 = 0x01F4 (00_scope.md R6). -/
def Config.animSpeed : Nat := 500

/-- GLYPH_BYTES: the bytes of one glyph (00_scope.md R6). -/
def Config.glyphBytes : Nat := 32

/-- BUILTIN_GLYPHS: the slots of the built-in table (00_scope.md R6). -/
def Config.builtinGlyphs : Nat := 65536

/-- BLANK_SPAN: the zero bytes of an all-blank trimmed glyph (00_scope.md R6). -/
def Config.blankSpan : Nat := 16

/-- TERMINATOR: the zero bytes appended in trimmed mode (00_scope.md R6). -/
def Config.terminator : Nat := 2

/-- SUPPRESSED_SPAN: the zero bytes of a gated-off glyph (00_scope.md R6). -/
def Config.suppressedSpan : Nat := 16

/-- HDR_RESERVED: the header bytes beyond the fields the source lists (00_scope.md R7). -/
def Config.hdrReserved : Nat := 24

/-- CT_TEXT, the content-type byte of a Text payload (00_scope.md R6). -/
def Config.ctText : Byte := 0x02#8

/-- CT_IMAGE (00_scope.md R6). -/
def Config.ctImage : Byte := 0x03#8

/-- CT_ANIM (00_scope.md R6). -/
def Config.ctAnim : Byte := 0x04#8

/-- SOF, the start marker of the envelope (00_scope.md R6). -/
def Config.sof : Byte := 0x01#8

/-- EOF, the end marker of the envelope (00_scope.md R6). -/
def Config.eof : Byte := 0x03#8

/-- ESC, the escape lead byte (00_scope.md R6). -/
def Config.esc : Byte := 0x02#8

/-- The mask of the escaped value, `b XOR 0x04` (00_scope.md R6). -/
def Config.escMask : Byte := 0x04#8

/-- The capacity of CUSTOM_TABLE and of GLYPH_ROM in bytes (00_scope.md R8). -/
def Config.tableCapacity : Nat := 2097152

/-- Parameter HDR_LAYOUT: where the reserved header bytes stand (00_scope.md R9). -/
inductive HdrLayout where
  /-- RESERVED_FIRST, the default. -/
  | reservedFirst
  /-- FIELDS_FIRST. -/
  | fieldsFirst
deriving DecidableEq, Repr

/-- Parameter TEXT_TOTAL_RULE: how a Text payload's total is counted (00_scope.md R10). -/
inductive TextTotalRule where
  /-- GATED, the default. -/
  | gated
  /-- PER_CHAR_X3. -/
  | perCharX3
deriving DecidableEq, Repr

/-- The parameters of one block that a model takes as arguments (00_scope.md R8 to R10, 92_eei_decisions.md D5, D6,
D9). They are fixed for a machine: no step writes them. DESIGN CHOICE, log 4: they stand in State, so that a claim
about every state is a claim about every block. -/
structure Params where
  hdrLayout : HdrLayout
  textTotalRule : TextTotalRule
  frameBufBytes : Nat
deriving DecidableEq, Repr

/-- The default parameters: RESERVED_FIRST, GATED, 275 (00_scope.md R8 to R10). -/
def Config.defaultParams : Params :=
  { hdrLayout := .reservedFirst, textTotalRule := .gated, frameBufBytes := 275 }

/-- GLYPH_ROM_CONTENT: byte `r` of the built-in glyph table, which no source gives (00_scope.md R11, 92_eei_decisions.md
D15). Free: log 5. -/
opaque Config.glyphRom : Nat → Byte

/-- The unspecified content of memory: the byte at a host address in one draw of the contents (20_memory.md R88,
70_reset_and_hazards.md R342, 10_state.md R59). Free: log 6 and log 7. -/
opaque Config.unwrittenByte : Nat → Nat → Byte

/-- A value a read returns where the spec leaves it unspecified ("a model draws any 32-bit value"), one per draw
(20_memory.md R85, R91). Free: log 8 and log 9. -/
opaque Config.anyWord : Nat → Word

/-- CMD_LATENCY: the number of further steps a command runs, one value per draw; unbounded but finite (00_scope.md R12,
70_reset_and_hazards.md R350). Free: log 2. -/
opaque Config.cmdLatency : Nat → Nat

end Sys2Proof
end

