-- ==== Sys2Proof/Machine/State.lean ====
section
/-! DEFINITION. The state of the block (10_state.md R30 to R61), the reasons a step can stop, and the state after
reset (70_reset_and_hazards.md R340 to R342). -/

namespace Sys2Proof.Machine

/-- Why the machine stops with a fault: never. "The block has no traps, exceptions or interrupts in the processor sense"
(60_exceptions.md R300), it "never halts" (92_eei_decisions.md D18), and every host address answers (20_memory.md R81).
So no constructor: nobody raises one, which is safe. -/
inductive Fault where
deriving DecidableEq, Repr

/-- Why the machine refuses a command. -/
inductive Refusal where
  /-- The command has no meaning in the model. Raised by no arm of exec: all four commands have their meaning. Safe. -/
  | notModelled (mnemonic : String)
deriving DecidableEq, Repr

/-- The memory behind the host address space (20_memory.md R81): the bytes written so far, at their host byte
addresses. An unlisted address holds no written byte; what it reads as is State.unwritten (Machine/Ops.lean). -/
abbrev Memory := List Host.Cell

/-- The flags the STATUS register holds besides BUSY (10_state.md R37 to R41). BUSY is the presence of a command in
flight (R60) and is not stored a second time (log 19). -/
structure Status where
  /-- STATUS.DONE, bit 1 (R37). -/
  done : Bool
  /-- STATUS.ERR, bit 2 (R38). -/
  err : Bool
  /-- STATUS.FAULT_SEEN, bit 3, sticky (R39). -/
  faultSeen : Bool
  /-- STATUS.OVERRUN, bit 4, sticky (R40). -/
  overrun : Bool
  /-- STATUS.ERRCODE, bits 11:8 (R41). -/
  errcode : BitVec 4
deriving DecidableEq, Repr

/-- The command in flight (10_state.md R60) and how many further steps it runs before the step that completes it
(CMD_LATENCY, 00_scope.md R12). -/
structure InFlight where
  word : Word
  remaining : Nat
deriving DecidableEq, Repr

/-- The width of a host access. The windows take 8-bit or 32-bit accesses; a 16-bit access is one "whose width is not the
entry size of its window" (20_memory.md R84, R85). -/
inductive Width where
  | w8
  | w16
  | w32
deriving DecidableEq, Repr

/-- One action of the world outside the block: a host access (20_memory.md R80), the host's poll (30_encoding.md R120),
a step in which the host does nothing, or the reset event (70_reset_and_hazards.md R340). -/
inductive HostAction where
  /-- A single read of the given width at a 23-bit host address. -/
  | read (width : Width) (addr : BitVec 23)
  /-- A single write of the low bits of `value` that the width takes. -/
  | write (width : Width) (addr : BitVec 23) (value : Word)
  /-- Repeat a read of STATUS until BUSY reads 0. -/
  | poll
  /-- No access in this step. -/
  | idle
  /-- The reset event. -/
  | reset
deriving DecidableEq, Repr

/-- The state of the machine. The first group is the spec's architectural state; the second the parameters of the block
(log 4); the third the model's own bookkeeping (log 20). -/
structure State where
  /-- The command in flight, or none; STATUS.BUSY is its presence (10_state.md R35, R36, R60). -/
  inflight : Option InFlight
  /-- STATUS, less BUSY (R37 to R41). -/
  status : Status
  /-- RESULT (R42). -/
  result : Word
  /-- FRAME_LEN, bits 8:0 (R43). -/
  frameLen : BitVec 9
  /-- ERR_INFO (R44). -/
  errInfo : Word
  /-- CFG_VARIANT, bits 1:0 (R45). -/
  cfgVariant : BitVec 2
  /-- CFG_DATA_LEN, bits 15:0 (R46). -/
  cfgDataLen : BitVec 16
  /-- CFG_FRAME_COUNT, bits 7:0 (R47). -/
  cfgFrameCount : BitVec 8
  /-- CFG_PHRASE_LEN, bits 15:0 (R48). -/
  cfgPhraseLen : BitVec 16
  /-- CFG_COLORS_LEN, bits 15:0 (R49). -/
  cfgColorsLen : BitVec 16
  /-- CFG_CHARSET, bit 0 CUSTOM (R50). -/
  cfgCharset : BitVec 1
  /-- CFG_CHARLIST_LEN, bits 15:0 (R51). -/
  cfgCharlistLen : BitVec 16
  /-- CFG_TABLE_LEN, bits 21:0 (R52). -/
  cfgTableLen : BitVec 22
  /-- The payload memories, GLYPH_ROM and FRAME_BUF (R53 to R59) at their host addresses (20_memory.md R81). -/
  mem : Memory
  /-- The parameters HDR_LAYOUT, TEXT_TOTAL_RULE and FRAME_BUF_BYTES; no step writes them. -/
  params : Params
  /-- MODEL: the host's coming actions, oldest first (log 1). -/
  pending : List HostAction
  /-- MODEL: the values the host's reads returned, newest first (log 20). -/
  readLog : List Word
  /-- MODEL: the latencies of the coming commands that the environment has fixed (log 2). -/
  latencies : List Nat
  /-- MODEL: which draw of unspecified contents the payload memories hold (log 6). -/
  memDraw : Nat
  /-- MODEL: which draw FRAME_BUF's unspecified bytes hold (log 7). -/
  frameDraw : Nat
  /-- MODEL: how many one-off values have been drawn (log 8). -/
  draws : Nat
deriving DecidableEq, Repr

/-- The machine right after reset: every register 0 (70_reset_and_hazards.md R340, 10_state.md R33), no command in flight
(R341), every memory entry unspecified, so none listed (R342). The parameters have their defaults. -/
def State.reset : State :=
  { inflight := none
    status := { done := false, err := false, faultSeen := false, overrun := false, errcode := 0#4 }
    result := 0#32
    frameLen := 0#9
    errInfo := 0#32
    cfgVariant := 0#2
    cfgDataLen := 0#16
    cfgFrameCount := 0#8
    cfgPhraseLen := 0#16
    cfgColorsLen := 0#16
    cfgCharset := 0#1
    cfgCharlistLen := 0#16
    cfgTableLen := 0#22
    mem := []
    params := Config.defaultParams
    pending := []
    readLog := []
    latencies := []
    memDraw := 0
    frameDraw := 0
    draws := 0 }

end Sys2Proof.Machine
end

