-- ==== Sys2Proof/Machine/Flags.lean ====
section
/-! DEFINITION. The STATUS flags and every event that writes them: command issue, the two completions and a dropped
write (10_state.md R35 to R41, R61; 60_exceptions.md R301, R302, R313). -/

namespace Sys2Proof.Machine

/-- The errors a command can end in (60_exceptions.md R302). -/
inductive CmdError where
  /-- ILLEGAL_CMD (R303). -/
  | illegalCmd
  /-- BAD_VARIANT (R304). -/
  | badVariant
  /-- NO_COLORS (R305). -/
  | noColors
  /-- BAD_COLOR (R306). -/
  | badColor
  /-- EMPTY_CHARLIST (R307). -/
  | emptyCharlist
  /-- GLYPH_RANGE (R308). -/
  | glyphRange
  /-- SIZE (R309). -/
  | size
  /-- INDEX (R310). -/
  | index
  /-- FRAME_OVERFLOW (R311). -/
  | frameOverflow
deriving DecidableEq, Repr

/-- `code(E)`, the value of STATUS.ERRCODE for an error (60_exceptions.md R302). -/
def CmdError.code : CmdError → BitVec 4
  | .illegalCmd => 1#4
  | .badVariant => 2#4
  | .noColors => 3#4
  | .badColor => 4#4
  | .emptyCharlist => 5#4
  | .glyphRange => 6#4
  | .size => 7#4
  | .index => 8#4
  | .frameOverflow => 9#4

/-- STATUS.BUSY: 1 from the issue of a command until its completion (10_state.md R36, R60). -/
def State.busy (s : State) : Bool :=
  s.inflight.isSome

/-- A command issue clears DONE, ERR and ERRCODE (10_state.md R35); the sticky flags stay. -/
def Status.issued (f : Status) : Status :=
  { f with done := false, err := false, errcode := 0#4 }

/-- A successful completion sets DONE and clears ERR and ERRCODE; "STATUS.FAULT_SEEN and STATUS.OVERRUN keep their
values" (60_exceptions.md R313). -/
def Status.succeeded (f : Status) : Status :=
  { f with done := true, err := false, errcode := 0#4 }

/-- An error completion sets ERR, FAULT_SEEN and ERRCODE and clears DONE (60_exceptions.md R301). -/
def Status.failed (f : Status) (e : CmdError) : Status :=
  { f with done := false, err := true, faultSeen := true, errcode := e.code }

/-- A host write dropped because BUSY = 1 sets OVERRUN (10_state.md R40). -/
def Status.overran (f : Status) : Status :=
  { f with overrun := true }

/-- A flag as a bit of a word. -/
def flagBit (b : Bool) (position : Nat) : Nat :=
  if b then 2 ^ position else 0

/-- STATUS as the host reads it: BUSY bit 0, DONE bit 1, ERR bit 2, FAULT_SEEN bit 3, OVERRUN bit 4, ERRCODE bits 11:8,
and "Bits 31:12 and 7:5 of STATUS read 0" (10_state.md R36 to R41). -/
def State.statusWord (s : State) : Word :=
  BitVec.ofNat 32 (flagBit s.busy 0 + flagBit s.status.done 1 + flagBit s.status.err 2
    + flagBit s.status.faultSeen 3 + flagBit s.status.overrun 4 + s.status.errcode.toNat * 2 ^ 8)

end Sys2Proof.Machine
end

