-- ==== Sys2Proof/Machine/Memory.lean ====
section
/-! DEFINITION. The byte memory behind the host address space (20_memory.md R80, R81, R87) and its canonical form. -/

namespace Sys2Proof.Machine

/-- The byte written at an address, if one was written. -/
def Memory.read : Memory → Nat → Option Byte
  | [], _ => none
  | (k, b) :: rest, a => if a = k then some b else Memory.read rest a

/-- Write one byte at an address, keeping the addresses rising. -/
def Memory.write : Memory → Nat → Byte → Memory
  | [], a, b => [(a, b)]
  | (k, c) :: rest, a, b =>
    if a < k then (a, b) :: (k, c) :: rest
    else if a = k then (a, b) :: rest
    else (k, c) :: Memory.write rest a b

/-- Write consecutive bytes from an address on, one at a time (20_memory.md R86). -/
def Memory.writeBytes : Memory → Nat → List Byte → Memory
  | m, _, [] => m
  | m, a, b :: bs => Memory.writeBytes (Memory.write m a b) (a + 1) bs

/-- Keep only the bytes at the addresses that `p` accepts; the others become unwritten. -/
def Memory.keep (m : Memory) (p : Nat → Bool) : Memory :=
  m.filter fun c => p c.1

/-- The canonical form: the addresses rise strictly. An unlisted address reads as unwritten, so no listed byte equals
what it would read as unlisted (log 6). -/
abbrev Memory.wf (m : Memory) : Prop :=
  m.Pairwise fun c d => c.1 < d.1

/-- The low byte of a host value. -/
def lowByte (v : Word) : Byte :=
  v.setWidth 8

/-- The four bytes of a 32-bit entry in the order the model stores them, least significant first; no host access can see
part of an entry (20_memory.md R84), so the order is the model's own (log 11). -/
def wordBytes (v : Word) : List Byte :=
  [BitVec.ofNat 8 v.toNat, BitVec.ofNat 8 (v.toNat / 2 ^ 8), BitVec.ofNat 8 (v.toNat / 2 ^ 16),
    BitVec.ofNat 8 (v.toNat / 2 ^ 24)]

/-- The 32-bit entry made of four stored bytes, the inverse of `wordBytes` (log 11). -/
def wordOfBytes (b0 b1 b2 b3 : Byte) : Word :=
  BitVec.ofNat 32 (b0.toNat + b1.toNat * 2 ^ 8 + b2.toNat * 2 ^ 16 + b3.toNat * 2 ^ 24)

/-- First host address of PAYLOAD_MEM (20_memory.md R81). -/
def payloadBase : Nat := 0x010000

/-- First host address of COLOR_MEM (20_memory.md R81). -/
def colorBase : Nat := 0x020000

/-- First host address of PHRASE_MEM (20_memory.md R81). -/
def phraseBase : Nat := 0x100000

/-- First host address of CHARLIST_MEM (20_memory.md R81). -/
def charlistBase : Nat := 0x140000

/-- First host address of CUSTOM_TABLE (20_memory.md R81). -/
def tableBase : Nat := 0x200000

/-- First host address of GLYPH_ROM (20_memory.md R81). -/
def romBase : Nat := 0x400000

/-- First host address of FRAME_BUF (20_memory.md R81). -/
def frameBase : Nat := 0x600000

/-- The address lies in the GLYPH_ROM window (20_memory.md R81). -/
def inRom (a : Nat) : Bool :=
  decide (romBase ≤ a) && decide (a < romBase + Config.tableCapacity)

/-- The address lies below the FRAME_BUF window, the last window of the map (20_memory.md R81). -/
def belowFrame (a : Nat) : Bool :=
  decide (a < frameBase)

end Sys2Proof.Machine
end

