-- ==== Sys2Proof/Machine/Ops.lean ====
section
/-! DEFINITION. The operations over memory and registers that every command shares: the notation of 00_scope.md R13 to
R15, the reads of the memories (20_memory.md R86, R88), FRAME_BUF (10_state.md R59), and the two ways a command
completes (60_exceptions.md R301, R313). -/

namespace Sys2Proof.Machine

/-- `zeros(n)` (00_scope.md R14). -/
def zeros (n : Nat) : List Byte :=
  List.replicate n 0x00#8

/-- `BE16(v)`, "the two-byte sequence [v[15:8], v[7:0]] (big-endian)" (00_scope.md R13, 20_memory.md R82). -/
def be16 (v : Nat) : List Byte :=
  [BitVec.ofNat 8 (v / 256), BitVec.ofNat 8 v]

/-- `ceil_div(a, b)`: the least `q` with `q * b >= a`, for `b > 0` (00_scope.md R15). -/
def ceilDiv (a b : Nat) : Nat :=
  (a + b - 1) / b

/-- `s[i .. j)` (00_scope.md R14). -/
def slice (s : List Byte) (i j : Nat) : List Byte :=
  (s.drop i).take (j - i)

/-- What an address that nothing has written reads as: the parameter GLYPH_ROM_CONTENT in the GLYPH_ROM window
(10_state.md R58; log 5), elsewhere the unspecified content of the current draw (20_memory.md R88, 10_state.md R59; log
6, log 7). -/
def State.unwritten (s : State) (a : Nat) : Byte :=
  if inRom a then Config.glyphRom (a - romBase)
  else if belowFrame a then Config.unwrittenByte s.memDraw a
  else Config.unwrittenByte s.frameDraw a

/-- The byte at a host address: the last byte written there, or else the unwritten content (20_memory.md R87). -/
def State.byteAt (s : State) (a : Nat) : Byte :=
  (s.mem.read a).getD (s.unwritten a)

/-- The 32-bit entry at a host address of a 32-bit window. -/
def State.wordAt (s : State) (a : Nat) : Word :=
  wordOfBytes (s.byteAt a) (s.byteAt (a + 1)) (s.byteAt (a + 2)) (s.byteAt (a + 3))

/-- `MemRead(MEM, addr, n)` for a memory of 8-bit entries whose window starts at `base` (00_scope.md R15). -/
def State.memRead (s : State) (base addr n : Nat) : List Byte :=
  (List.range n).map fun k => s.byteAt (base + (addr + k))

/-- Store one byte: a write to an entry of an 8-bit window. -/
def State.putByte (s : State) (a : Nat) (b : Byte) : State :=
  { s with mem := s.mem.write a b }

/-- Store one 32-bit entry, whole (20_memory.md R87). -/
def State.putWord (s : State) (a : Nat) (v : Word) : State :=
  { s with mem := s.mem.writeBytes a (wordBytes v) }

/-- Every byte of FRAME_BUF becomes unspecified: a fresh draw and nothing listed (10_state.md R59; log 7). -/
def State.forgetFrame (s : State) : State :=
  { s with mem := s.mem.keep belowFrame, frameDraw := s.frameDraw + 1 }

/-- The frame of a successful GEN: FRAME_BUF[0 .. |frame|) holds it, the bytes above become unspecified, and FRAME_LEN is
its length (41_chunker.md R197). -/
def State.storeFrame (s : State) (frame : List Byte) : State :=
  let cleared := s.forgetFrame
  { cleared with
    mem := cleared.mem.writeBytes frameBase frame
    frameLen := BitVec.ofNat 9 frame.length }

/-- An error with the value of ERR_INFO that goes with it: what `raise <ERROR>(info)` names (00_scope.md R15). -/
structure Raise where
  error : CmdError
  info : Nat
deriving DecidableEq, Repr

/-- Error completion `raise E(info)`, the one operation every error takes (60_exceptions.md R301). A GEN also writes
FRAME_LEN <- 0 and leaves FRAME_BUF unspecified; the other commands, and an illegal word (log 10), leave both
unchanged. The block returns to idle; there is no trap entry and no return (R316, R317). -/
def State.raise (s : State) (isGen : Bool) (r : Raise) : State :=
  let t := if isGen then { s.forgetFrame with frameLen := 0#9 } else s
  { t with
    inflight := none
    status := t.status.failed r.error
    result := 0#32
    errInfo := BitVec.ofNat 32 r.info }

/-- Successful completion with the value for RESULT (60_exceptions.md R313). -/
def State.succeed (s : State) (value : Nat) : State :=
  { s with
    inflight := none
    status := s.status.succeeded
    result := BitVec.ofNat 32 value
    errInfo := 0#32 }

/-- A host write dropped because a command is in flight: only OVERRUN is set (20_memory.md R90, 60_exceptions.md R318). -/
def State.dropWrite (s : State) : State :=
  { s with status := s.status.overran }

/-- Draw a value the spec leaves unspecified (20_memory.md R85, R91; log 8). -/
def State.draw (s : State) : Word × State :=
  (Config.anyWord s.draws, { s with draws := s.draws + 1 })

/-- The latency of the next command: the environment's next choice, or a free value (00_scope.md R12; log 2). -/
def State.takeLatency (s : State) : Nat × State :=
  match s.latencies with
  | n :: rest => (n, { s with latencies := rest })
  | [] => (Config.cmdLatency s.draws, { s with draws := s.draws + 1 })

/-- The reset event, from any state (70_reset_and_hazards.md R340 to R342): every register 0, the command in flight
abandoned, every memory entry unspecified but GLYPH_ROM's, which stay. The parameters, and what stands outside the
block, stay (log 17). -/
def State.resetEvent (s : State) : State :=
  { State.reset with
    mem := s.mem.keep inRom
    params := s.params
    pending := s.pending
    readLog := s.readLog
    latencies := s.latencies
    memDraw := s.memDraw + 1
    frameDraw := s.frameDraw + 1
    draws := s.draws }

end Sys2Proof.Machine
end

