-- ==== Sys2Proof/Machine/Framing.lean ====
section
/-! DEFINITION. The framing engine: sub-packet, checksum, control-byte escape and envelope (43_framing_engine.md R260 to
R274). -/

namespace Sys2Proof.Machine

/-- `checksum(s)`: the XOR-fold of the bytes, 0x00 for none (43_framing_engine.md R262). -/
def checksum (s : List Byte) : Byte :=
  s.foldl (fun acc b => acc ^^^ b) 0x00#8

/-- The sub-packet before its checksum: lead 0x00, whole size, index, content length, body (43_framing_engine.md R260). -/
def subpacketPrefix (whole index : Nat) (body : List Byte) : List Byte :=
  [0x00#8] ++ be16 whole ++ be16 index ++ [BitVec.ofNat 8 body.length] ++ body

/-- `make_subpacket(whole, index, body)` (43_framing_engine.md R261, R263). -/
def makeSubpacket (whole index : Nat) (body : List Byte) : List Byte :=
  let pre := subpacketPrefix whole index body
  pre ++ [checksum pre]

/-- A control byte: 0x01, 0x02 or 0x03 (00_scope.md R18). -/
def isControl (b : Byte) : Bool :=
  b == 0x01#8 || b == 0x02#8 || b == 0x03#8

/-- `esc(b)` (43_framing_engine.md R264). -/
def escByte (b : Byte) : List Byte :=
  if isControl b then [Config.esc, b ^^^ Config.escMask] else [b]

/-- `escape(s)`: "Every original byte is examined exactly once, in order" (43_framing_engine.md R265). -/
def escape (s : List Byte) : List Byte :=
  s.flatMap escByte

/-- Un-escape, the receiver's inverse; the block performs none (43_framing_engine.md R271). A lone escape byte at the end
stands for itself; an escaped sequence holds none. -/
def unescape : List Byte → List Byte
  | [] => []
  | [b] => [b]
  | b :: c :: rest =>
    if b = Config.esc then (c ^^^ Config.escMask) :: unescape rest else b :: unescape (c :: rest)

/-- `make_frame(ct, sub)`: the envelope around the escaped content type and sub-packet, with the length before escaping
(43_framing_engine.md R266, R268, R269). -/
def makeFrame (ct : Byte) (sub : List Byte) : List Byte :=
  [Config.sof] ++ be16 (1 + sub.length) ++ escape ([ct] ++ sub) ++ [Config.eof]

end Sys2Proof.Machine
end

