-- ==== Sys2Proof/Machine/Operands.lean ====
section
/-! DEFINITION. The operands a command reads from the payload binding: the variant (30_encoding.md R121), colour tags
(R122, 42_glyph_renderer.md R227, R228), character codes (R117) and the entries of the payload memories (20_memory.md
R86, R88). -/

namespace Sys2Proof.Machine

/-- The payload variants (30_encoding.md R121, 10_state.md R62). -/
inductive Variant where
  | text
  | image
  | animation
deriving DecidableEq, Repr

/-- The variant CFG_VARIANT selects; the value 3 is reserved (10_state.md R45). -/
def State.variant (s : State) : Option Variant :=
  match s.cfgVariant.toNat with
  | 0 => some .text
  | 1 => some .image
  | 2 => some .animation
  | _ => none

/-- The content-type byte of a variant (30_encoding.md R121, R123). -/
def contentType : Variant → Byte
  | .text => Config.ctText
  | .image => Config.ctImage
  | .animation => Config.ctAnim

/-- CFG_DATA_LEN as a number (10_state.md R46). -/
def State.dataLen (s : State) : Nat := s.cfgDataLen.toNat

/-- CFG_PHRASE_LEN as a number (10_state.md R48). -/
def State.phraseLen (s : State) : Nat := s.cfgPhraseLen.toNat

/-- CFG_COLORS_LEN as a number (10_state.md R49). -/
def State.colorsLen (s : State) : Nat := s.cfgColorsLen.toNat

/-- CFG_CHARLIST_LEN as a number (10_state.md R51). -/
def State.charlistLen (s : State) : Nat := s.cfgCharlistLen.toNat

/-- The length of the custom table, `min(CFG_TABLE_LEN, 2097152)` (10_state.md R52, 42_glyph_renderer.md R222). -/
def State.tableLen (s : State) : Nat := min s.cfgTableLen.toNat Config.tableCapacity

/-- CFG_CHARSET.CUSTOM (10_state.md R50). -/
def State.custom (s : State) : Bool := s.cfgCharset == 1#1

/-- The character code of phrase character `i`, entry `i` of PHRASE_MEM (10_state.md R54). -/
def State.charCode (s : State) (i : Nat) : Word := s.wordAt (phraseBase + 4 * i)

/-- The code at position `k` of the custom character list, entry `k` of CHARLIST_MEM (10_state.md R56). -/
def State.listCode (s : State) (k : Nat) : Word := s.wordAt (charlistBase + 4 * k)

/-- `tag(i) = MemRead(COLOR_MEM, i mod CFG_COLORS_LEN, 1)` (42_glyph_renderer.md R228); used only when CFG_COLORS_LEN is
positive. -/
def State.colorTag (s : State) (i : Nat) : Byte := s.byteAt (colorBase + i % s.colorsLen)

/-- The colours (30_encoding.md R116). -/
inductive Color where
  | white
  | red
  | green
  | blue
  | yellow
  | pink
  | cyan
deriving DecidableEq, Repr

/-- The colour of a tag; "any entry value 7 to 255 is illegal" (30_encoding.md R122). -/
def Color.ofTag (tag : Byte) : Option Color :=
  match tag.toNat with
  | 0 => some .white
  | 1 => some .red
  | 2 => some .green
  | 3 => some .blue
  | 4 => some .yellow
  | 5 => some .pink
  | 6 => some .cyan
  | _ => none

/-- The primary channels, one per colour-cycle pass (42_glyph_renderer.md R229). -/
inductive Channel where
  | red
  | green
  | blue
deriving DecidableEq, Repr

/-- The three passes in order: "over three color-cycle passes (Red, then Green, then Blue)" (42_glyph_renderer.md R229). -/
def passes : List Channel := [.red, .green, .blue]

/-- The channel mask of a colour: bit 0 = Red, bit 1 = Green, bit 2 = Blue (42_glyph_renderer.md R227). -/
def Color.mask : Color → BitVec 3
  | .white => 0b111#3
  | .red => 0b001#3
  | .green => 0b010#3
  | .blue => 0b100#3
  | .yellow => 0b011#3
  | .pink => 0b101#3
  | .cyan => 0b110#3

/-- The bit of the mask that a pass tests (42_glyph_renderer.md R229). -/
def Channel.bit : Channel → Nat
  | .red => 0
  | .green => 1
  | .blue => 2

/-- The tag's colour contains the channel. A tag above 6 has no colour; the validation scan has ended the command before
one could be asked for (42_glyph_renderer.md R232; log 14). -/
def tagContains (tag : Byte) (p : Channel) : Bool :=
  match Color.ofTag tag with
  | some c => c.mask.getLsbD p.bit
  | none => false

end Sys2Proof.Machine
end

