-- ==== Sys2Proof/Machine/Glyph.lean ====
section
/-! DEFINITION. The glyph renderer: lookup, column trim, channel gate, Text stream, validation scan and window
(42_glyph_renderer.md R220 to R236). -/

namespace Sys2Proof.Machine

/-- Built-in lookup: the slot at `32 * c`, or GLYPH_RANGE for `c >= 65536` (42_glyph_renderer.md R221). -/
def glyphBuiltin (s : State) (c : Word) : Except CmdError (List Byte) :=
  if c.toNat < Config.builtinGlyphs then
    .ok (s.memRead romBase (Config.glyphBytes * c.toNat) Config.glyphBytes)
  else .error .glyphRange

/-- The list position of a code: the least `k` whose entry equals it, or 0 if none does (42_glyph_renderer.md R222). -/
def listPosition (s : State) (c : Word) : Nat :=
  ((List.range s.charlistLen).find? fun k => s.listCode k == c).getD 0

/-- Custom lookup with the fallback to list position 0 (42_glyph_renderer.md R222). -/
def glyphCustom (s : State) (c : Word) : Except CmdError (List Byte) :=
  if s.charlistLen = 0 then .error .emptyCharlist
  else
    let pos := listPosition s c
    if Config.glyphBytes * (pos + 1) > s.tableLen then .error .glyphRange
    else .ok (s.memRead tableBase (Config.glyphBytes * pos) Config.glyphBytes)

/-- `glyph(c)`, from the source CFG_CHARSET.CUSTOM selects (42_glyph_renderer.md R220). -/
def glyph (s : State) (c : Word) : Except CmdError (List Byte) :=
  if s.custom then glyphCustom s c else glyphBuiltin s c

/-- Column pair `k` of a glyph is non-zero (42_glyph_renderer.md R223). -/
def pairNonzero (g : List Byte) (k : Nat) : Bool :=
  g.getD (2 * k) 0x00#8 != 0x00#8 || g.getD (2 * k + 1) 0x00#8 != 0x00#8

/-- The set NZ of the non-zero pairs, rising (42_glyph_renderer.md R224). -/
def nonzeroPairs (g : List Byte) : List Nat :=
  (List.range 16).filter (pairNonzero g)

/-- `trim(g)` (42_glyph_renderer.md R224). -/
def trim (g : List Byte) : List Byte :=
  match nonzeroPairs g with
  | [] => zeros Config.blankSpan
  | kf :: rest => slice g (2 * kf) (2 * (kf :: rest).getLastD kf + 2)

/-- `span(i)`: the trimmed glyph and the two-byte terminator (42_glyph_renderer.md R225). A character whose lookup fails
has ended the command in the validation scan, so its span is never asked for (R232; log 14). -/
def span (s : State) (i : Nat) : List Byte :=
  match glyph s (s.charCode i) with
  | .ok g => trim g ++ zeros Config.terminator
  | .error _ => []

/-- `gated_span(i, p)` (42_glyph_renderer.md R230). -/
def gatedSpan (s : State) (i : Nat) (p : Channel) : List Byte :=
  if tagContains (s.colorTag i) p then span s i else zeros Config.suppressedSpan

/-- The gated spans in stream order: pass is the outer loop, character the inner (42_glyph_renderer.md R231). -/
def gatedSpans (s : State) : List (List Byte) :=
  passes.flatMap fun p => (List.range s.phraseLen).map fun i => gatedSpan s i p

/-- TS, the Text content stream (42_glyph_renderer.md R231). -/
def textStream (s : State) : List Byte :=
  (gatedSpans s).flatten

/-- The scan's checks of one character, in order: NO_COLORS, BAD_COLOR, then the glyph lookup (42_glyph_renderer.md
R232). -/
def scanChar (s : State) (i : Nat) : Option Raise :=
  if s.colorsLen = 0 then some { error := .noColors, info := i }
  else if (s.colorTag i).toNat > 6 then some { error := .badColor, info := i }
  else
    match glyph s (s.charCode i) with
    | .ok _ => none
    | .error e => some { error := e, info := i }

/-- The validation scan: "The first failing character in phrase order is reported" (42_glyph_renderer.md R232). -/
def validationScan (s : State) : Option Raise :=
  (List.range s.phraseLen).findSome? (scanChar s)

/-- `S = sum |span(i)|` (42_glyph_renderer.md R235). -/
def spanSum (s : State) : Nat :=
  ((List.range s.phraseLen).map fun i => (span s i).length).sum

/-- The loop of `window(a, m)` over the gated spans that are left, with the bytes still to skip and those already taken
(42_glyph_renderer.md R233); past the end of the stream positions read 0x00 (R234). -/
def windowLoop : List (List Byte) → Nat → Nat → List Byte → List Byte
  | [], _, m, out => out ++ zeros (m - out.length)
  | sp :: rest, skip, m, out =>
    if sp.length ≤ skip then windowLoop rest (skip - sp.length) m out
    else
      let taken := out ++ slice sp skip (skip + min (sp.length - skip) (m - out.length))
      if taken.length = m then taken else windowLoop rest 0 m taken

/-- `window(a, m)`: the `m` bytes of TS from position `a` on (42_glyph_renderer.md R233). -/
def window (s : State) (a m : Nat) : List Byte :=
  windowLoop (gatedSpans s) a m []

end Sys2Proof.Machine
end

