-- ==== Sys2Proof/Machine/Planner.lean ====
section
/-! DEFINITION. The packet planner and the three query commands (40_planner.md R150 to R159). -/

namespace Sys2Proof.Machine

/-- `header_padding(v)` (40_planner.md R150). -/
def headerPadding : Variant → Nat
  | .text => Config.padText
  | .image => Config.padImage
  | .animation => Config.padAnim

/-- The total content bytes of a Text payload under the block's TEXT_TOTAL_RULE (40_planner.md R152). -/
def textTotal (s : State) : Nat :=
  match s.params.textTotalRule with
  | .gated => ((gatedSpans s).map List.length).sum
  | .perCharX3 => 3 * spanSum s

/-- The total content bytes of the payload (40_planner.md R151, R152). -/
def contentTotal (s : State) : Variant → Nat
  | .text => textTotal s
  | .image => s.dataLen
  | .animation => s.dataLen

/-- The checks a command makes of the payload before it counts: none for Image and Animation, the validation scan for
Text (40_planner.md R156). -/
def payloadCheck (s : State) : Variant → Option Raise
  | .text => validationScan s
  | .image => none
  | .animation => none

/-- What QTOTAL, QCOUNT and GEN begin with: the variant and the total content bytes, or the error the command ends in, in
the order of 60_exceptions.md R312 (40_planner.md R156, 41_chunker.md R180). -/
def plan (s : State) : Except Raise (Variant × Nat) :=
  match s.variant with
  | none => .error { error := .badVariant, info := 0 }
  | some v =>
    match payloadCheck s v with
    | some r => .error r
    | none => .ok (v, contentTotal s v)

/-- `packet_count = ceil_div(whole_size, 128)` (40_planner.md R154). -/
def packetCount (whole : Nat) : Nat :=
  ceilDiv whole Config.bodyMax

/-- QTOTAL (40_planner.md R156). -/
def execQtotal (s : State) : Host.Outcome State Fault Refusal :=
  match plan s with
  | .error r => .next (s.raise false r)
  | .ok (_, total) => .next (s.succeed total)

/-- QPAD (40_planner.md R157). -/
def execQpad (s : State) : Host.Outcome State Fault Refusal :=
  match s.variant with
  | none => .next (s.raise false { error := .badVariant, info := 0 })
  | some v => .next (s.succeed (headerPadding v))

/-- QCOUNT (40_planner.md R158). -/
def execQcount (s : State) : Host.Outcome State Fault Refusal :=
  match plan s with
  | .error r => .next (s.raise false r)
  | .ok (v, total) => .next (s.succeed (packetCount (total + headerPadding v)))

end Sys2Proof.Machine
end

