-- ==== Sys2Proof/Machine/Chunker.lean ====
section
/-! DEFINITION. The packet chunking engine and GEN (41_chunker.md R180 to R198). -/

namespace Sys2Proof.Machine

/-- `already_sent(index, pad)`: an offset into the content stream (41_chunker.md R183). -/
def alreadySent (index pad : Nat) : Nat :=
  if index = 0 then 0 else (Config.bodyMax - pad) + Config.bodyMax * (index - 1)

/-- The number of content bytes a packet carries: `min(total, 128 - pad)` for packet 0, `min(total - already_sent, 128)`
for a continuation packet (41_chunker.md R184, R185). -/
def contentLength (index total pad : Nat) : Nat :=
  if index = 0 then min total (Config.bodyMax - pad)
  else min (total - alreadySent index pad) Config.bodyMax

/-- `content(a, m)`: the bytes at content offsets `a .. a + m - 1` (41_chunker.md R187). -/
def content (s : State) (v : Variant) (a m : Nat) : List Byte :=
  match v with
  | .text => window s a m
  | .image => s.memRead payloadBase a m
  | .animation => s.memRead payloadBase a m

/-- The visible header `V(v, total)` (41_chunker.md R190 to R192). -/
def visibleHeader (s : State) (v : Variant) (total : Nat) : List Byte :=
  match v with
  | .text => zeros 81 ++ be16 total
  | .image => be16 s.dataLen
  | .animation => [s.cfgFrameCount] ++ be16 Config.animSpeed

/-- `header(v, total)`: the visible header and the reserved zero bytes, in the order HDR_LAYOUT gives (41_chunker.md
R189). -/
def header (s : State) (v : Variant) (total : Nat) : List Byte :=
  match s.params.hdrLayout with
  | .reservedFirst => zeros Config.hdrReserved ++ visibleHeader s v total
  | .fieldsFirst => visibleHeader s v total ++ zeros Config.hdrReserved

/-- `make_body(index, total, pad)`: header and content for packet 0, content alone after it (41_chunker.md R186). -/
def makeBody (s : State) (v : Variant) (index total : Nat) : List Byte :=
  let pad := headerPadding v
  let body := content s v (alreadySent index pad) (contentLength index total pad)
  if index = 0 then header s v total ++ body else body

/-- The frame of packet `index` of a payload with the given total (41_chunker.md R180). -/
def packetFrame (s : State) (v : Variant) (index total : Nat) : List Byte :=
  makeFrame (contentType v)
    (makeSubpacket (total + headerPadding v) index (makeBody s v index total))

/-- What GEN computes from its index and the payload: the frame, or the error it ends in, in the order BAD_VARIANT, the
scan errors, SIZE, INDEX, FRAME_OVERFLOW (41_chunker.md R180, R182, R198; 43_framing_engine.md R273; 60_exceptions.md
R312). -/
def generate (s : State) (index : Nat) : Except Raise (List Byte) :=
  match plan s with
  | .error r => .error r
  | .ok (v, total) =>
    let whole := total + headerPadding v
    if whole > 65535 then .error { error := .size, info := whole }
    else if index ≥ packetCount whole then .error { error := .index, info := index }
    else
      let frame := packetFrame s v index total
      if frame.length > s.params.frameBufBytes then .error { error := .frameOverflow, info := frame.length }
      else .ok frame

/-- GEN (41_chunker.md R180, results R197). -/
def execGen (index : Nat) (s : State) : Host.Outcome State Fault Refusal :=
  match generate s index with
  | .error r => .next (s.raise true r)
  | .ok frame => .next ((s.storeFrame frame).succeed frame.length)

end Sys2Proof.Machine
end

