-- ==== Sys2Proof/Machine/Dispatch.lean ====
section
/-! DEFINITION. One arm per command (30_encoding.md R113). -/

namespace Sys2Proof.Machine

def exec (i : Instr) (s : State) : Host.Outcome State Fault Refusal :=
  match i with
  | .qtotal => Sys2Proof.Machine.execQtotal s
  | .qpad => Sys2Proof.Machine.execQpad s
  | .qcount => Sys2Proof.Machine.execQcount s
  | .gen index => Sys2Proof.Machine.execGen index s

end Sys2Proof.Machine
end

