-- ==== Sys2Proof/Machine/HostPort.lean ====
section
/-! DEFINITION. The host port: the register map (10_state.md R33, R34), the address map (20_memory.md R81), host reads and
writes (R84 to R91), the issue of a command (10_state.md R35) and the reset event (70_reset_and_hazards.md R340). -/

namespace Sys2Proof.Machine

/-- The host-visible registers (10_state.md R33). -/
inductive Reg where
  | cmd
  | status
  | result
  | frameLen
  | errInfo
  | cfgVariant
  | cfgDataLen
  | cfgFrameCount
  | cfgPhraseLen
  | cfgColorsLen
  | cfgCharset
  | cfgCharlistLen
  | cfgTableLen
deriving DecidableEq, Repr

/-- The byte offset of a register in the register window (10_state.md R33). -/
def Reg.offset : Reg → Nat
  | .cmd => 0x00
  | .status => 0x04
  | .result => 0x08
  | .frameLen => 0x0C
  | .errInfo => 0x10
  | .cfgVariant => 0x20
  | .cfgDataLen => 0x24
  | .cfgFrameCount => 0x28
  | .cfgPhraseLen => 0x2C
  | .cfgColorsLen => 0x30
  | .cfgCharset => 0x34
  | .cfgCharlistLen => 0x38
  | .cfgTableLen => 0x3C

/-- The register at an offset of the register window; the other offsets are reserved (10_state.md R33). -/
def regAt (offset : Nat) : Option Reg :=
  match offset with
  | 0x00 => some .cmd
  | 0x04 => some .status
  | 0x08 => some .result
  | 0x0C => some .frameLen
  | 0x10 => some .errInfo
  | 0x20 => some .cfgVariant
  | 0x24 => some .cfgDataLen
  | 0x28 => some .cfgFrameCount
  | 0x2C => some .cfgPhraseLen
  | 0x30 => some .cfgColorsLen
  | 0x34 => some .cfgCharset
  | 0x38 => some .cfgCharlistLen
  | 0x3C => some .cfgTableLen
  | _ => none

/-- The value a register holds, its unused bits 0; CMD reads 0 (10_state.md R34, R35). -/
def State.regValue (s : State) : Reg → Word
  | .cmd => 0#32
  | .status => s.statusWord
  | .result => s.result
  | .frameLen => s.frameLen.setWidth 32
  | .errInfo => s.errInfo
  | .cfgVariant => s.cfgVariant.setWidth 32
  | .cfgDataLen => s.cfgDataLen.setWidth 32
  | .cfgFrameCount => s.cfgFrameCount.setWidth 32
  | .cfgPhraseLen => s.cfgPhraseLen.setWidth 32
  | .cfgColorsLen => s.cfgColorsLen.setWidth 32
  | .cfgCharset => s.cfgCharset.setWidth 32
  | .cfgCharlistLen => s.cfgCharlistLen.setWidth 32
  | .cfgTableLen => s.cfgTableLen.setWidth 32

/-- A host read of a register. While a command is in flight RESULT, FRAME_LEN and ERR_INFO return an unspecified value
(20_memory.md R91), FRAME_LEN's within its used bits (10_state.md R34; log 8). -/
def State.readReg (s : State) (r : Reg) : Word × State :=
  if s.busy then
    match r with
    | .result => s.draw
    | .errInfo => s.draw
    | .frameLen => ((s.draw.1.setWidth 9).setWidth 32, s.draw.2)
    | _ => (s.regValue r, s)
  else (s.regValue r, s)

/-- A command issue: BUSY is set with the word in flight, DONE, ERR and ERRCODE are cleared in the same step (10_state.md
R35). An ILLEGAL word "completes at once" (30_encoding.md R114): it has no latency (log 3). -/
def State.issue (s : State) (w : Word) : State :=
  match decode w with
  | .ok _ =>
    { s.takeLatency.2 with
      inflight := some { word := w, remaining := s.takeLatency.1 }
      status := s.status.issued }
  | .error _ =>
    { s with
      inflight := some { word := w, remaining := 0 }
      status := s.status.issued }

/-- A CFG register stores the bits it uses (10_state.md R34, R45 to R52); a write to a read-only register is ignored. -/
def State.storeReg (s : State) (r : Reg) (v : Word) : State :=
  match r with
  | .cmd => s
  | .status => s
  | .result => s
  | .frameLen => s
  | .errInfo => s
  | .cfgVariant => { s with cfgVariant := v.setWidth 2 }
  | .cfgDataLen => { s with cfgDataLen := v.setWidth 16 }
  | .cfgFrameCount => { s with cfgFrameCount := v.setWidth 8 }
  | .cfgPhraseLen => { s with cfgPhraseLen := v.setWidth 16 }
  | .cfgColorsLen => { s with cfgColorsLen := v.setWidth 16 }
  | .cfgCharset => { s with cfgCharset := v.setWidth 1 }
  | .cfgCharlistLen => { s with cfgCharlistLen := v.setWidth 16 }
  | .cfgTableLen => { s with cfgTableLen := v.setWidth 22 }

/-- The register is read-only for the host (10_state.md R33). -/
def Reg.readOnly : Reg → Bool
  | .status => true
  | .result => true
  | .frameLen => true
  | .errInfo => true
  | _ => false

/-- A host write to a register: ignored on a read-only register, dropped while a command is in flight, a command issue on
CMD, a store on a CFG register (10_state.md R34, R35, 20_memory.md R90; log 12). -/
def State.writeReg (s : State) (r : Reg) (v : Word) : State :=
  if r.readOnly then s
  else if s.busy then s.dropWrite
  else if r = .cmd then s.issue v
  else s.storeReg r v

/-- The windows of the host address map (20_memory.md R81). -/
inductive Window where
  | registers
  | payload
  | color
  | phrase
  | charlist
  | table
  | rom
  | frame
deriving DecidableEq, Repr

/-- The entry size of a window (20_memory.md R81). -/
def Window.entry : Window → Width
  | .registers => .w32
  | .payload => .w8
  | .color => .w8
  | .phrase => .w32
  | .charlist => .w32
  | .table => .w8
  | .rom => .w8
  | .frame => .w8

/-- The window an address lies in, row by row of the address map; "Every other address is reserved" (20_memory.md R81).
FRAME_BUF's size is a parameter (00_scope.md R8). -/
def windowAt (p : Params) (a : Nat) : Option Window :=
  if a < 0x000100 then some .registers
  else if 0x010000 ≤ a ∧ a < 0x020000 then some .payload
  else if 0x020000 ≤ a ∧ a < 0x030000 then some .color
  else if 0x100000 ≤ a ∧ a < 0x140000 then some .phrase
  else if 0x140000 ≤ a ∧ a < 0x180000 then some .charlist
  else if 0x200000 ≤ a ∧ a < 0x400000 then some .table
  else if 0x400000 ≤ a ∧ a < 0x600000 then some .rom
  else if 0x600000 ≤ a ∧ a < 0x600000 + p.frameBufBytes then some .frame
  else none

/-- A 32-bit access whose address is not a multiple of 4 (20_memory.md R85). -/
def misaligned (width : Width) (a : Nat) : Bool :=
  width == .w32 && a % 4 != 0

/-- A performed read of the entry at an address of a window, zero-extended (20_memory.md R81, R87, R91). -/
def State.readEntry (s : State) (win : Window) (a : Nat) : Word × State :=
  match win with
  | .registers =>
    match regAt a with
    | some r => s.readReg r
    | none => (0#32, s)
  | .payload => ((s.byteAt a).setWidth 32, s)
  | .color => ((s.byteAt a).setWidth 32, s)
  | .phrase => (s.wordAt a, s)
  | .charlist => (s.wordAt a, s)
  | .table => ((s.byteAt a).setWidth 32, s)
  | .rom => ((s.byteAt a).setWidth 32, s)
  | .frame => if s.busy then ((lowByte s.draw.1).setWidth 32, s.draw.2) else ((s.byteAt a).setWidth 32, s)

/-- A performed write of the entry at an address of a window (20_memory.md R81, R87, R90). -/
def State.writeEntry (s : State) (win : Window) (a : Nat) (v : Word) : State :=
  match win with
  | .registers =>
    match regAt a with
    | some r => s.writeReg r v
    | none => s
  | .payload => if s.busy then s.dropWrite else s.putByte a (lowByte v)
  | .color => if s.busy then s.dropWrite else s.putByte a (lowByte v)
  | .phrase => if s.busy then s.dropWrite else s.putWord a v
  | .charlist => if s.busy then s.dropWrite else s.putWord a v
  | .table => if s.busy then s.dropWrite else s.putByte a (lowByte v)
  | .rom => s
  | .frame => s

/-- A host read: the value and the state after it. A misaligned access, or one of another width than the window's entry,
is not performed and returns any value (20_memory.md R85; log 9); a reserved address reads 0 (R81). -/
def State.hostRead (s : State) (width : Width) (a : Nat) : Word × State :=
  if misaligned width a then s.draw
  else
    match windowAt s.params a with
    | none => (0#32, s)
    | some win => if win.entry = width then s.readEntry win a else s.draw

/-- A host write. One that is not performed is ignored and records nothing (20_memory.md R85); so is one to a reserved
address (R81). -/
def State.hostWrite (s : State) (width : Width) (a : Nat) (v : Word) : State :=
  if misaligned width a then s
  else
    match windowAt s.params a with
    | none => s
    | some win => if win.entry = width then s.writeEntry win a v else s

/-- Log the value a host read returned. -/
def State.logRead (s : State) (v : Word) : State :=
  { s with readLog := v :: s.readLog }

/-- One action of the host. `poll` "repeats rd STATUS until bit 0 (BUSY) reads 0" (30_encoding.md R120): it stays the next
action while BUSY reads 1. -/
def State.act (s : State) : HostAction → State
  | .read width addr => (s.hostRead width addr.toNat).2.logRead (s.hostRead width addr.toNat).1
  | .write width addr value => s.hostWrite width addr.toNat value
  | .poll =>
    if s.busy then { s.logRead s.statusWord with pending := .poll :: s.pending } else s.logRead s.statusWord
  | .idle => s
  | .reset => s.resetEvent

/-- The host's turn: its next action, if it has one (20_memory.md R89: "one at a time in the host's program order"). -/
def State.hostTurn (s : State) : State :=
  match s.pending with
  | [] => s
  | a :: rest => { s with pending := rest }.act a

end Sys2Proof.Machine
end

