-- ==== Sys2Proof/Machine/Engine.lean ====
section
/-! DEFINITION. The two agents in one step: the completion of the command in flight and the host's turn (00_scope.md R12,
R19; 20_memory.md R89; 70_reset_and_hazards.md R350). -/

namespace Sys2Proof.Machine

/-- The step that completes a command: the decoded command's meaning, or the error completion ILLEGAL_CMD with the word in
ERR_INFO (30_encoding.md R114, 60_exceptions.md R303). -/
def runWord (w : Word) (s : State) : Host.Outcome State Fault Refusal :=
  match decode w with
  | .ok i => exec i s
  | .error _ => .next (s.raise false { error := .illegalCmd, info := w.toNat })

/-- A step of the machine: with a command in flight whose latency has run out, its completion; with one still running, a
step of latency passes and the host may make an access; with none, the host's turn (92_eei_decisions.md D2; log 13). -/
def turn (s : State) : Host.Outcome State Fault Refusal :=
  match s.inflight with
  | none => .next s.hostTurn
  | some c =>
    match c.remaining with
    | 0 => runWord c.word s
    | n + 1 => .next { s with inflight := some { c with remaining := n } }.hostTurn

/-- Put a command word in flight with its latency run out, so that the next step completes it (log 1). -/
def State.placeWord (s : State) (w : Word) : State :=
  { s with inflight := some { word := w, remaining := 0 } }

end Sys2Proof.Machine
end

