-- ==== Sys2Proof/Machine/Script.lean ====
section
/-! DEFINITION. The assembler of command lines, and the host script, from its text to the host accesses it expands to
(30_encoding.md R118 to R120). -/

namespace Sys2Proof.Machine

/-- A letter in lower case: "Mnemonics are case-insensitive" (30_encoding.md R118). -/
def lowerChar (c : Char) : Char :=
  if 65 ≤ c.toNat ∧ c.toNat ≤ 90 then Char.ofNat (c.toNat + 32) else c

/-- The words of a line, cut at blanks. -/
def lineWords : List Char → List (List Char)
  | [] => []
  | c :: rest =>
    if c = ' ' then lineWords rest
    else
      match rest, lineWords rest with
      | ' ' :: _, ws => [c] :: ws
      | [], ws => [c] :: ws
      | _, [] => [[c]]
      | _, w :: ws => (c :: w) :: ws

/-- The value of a digit in a base of at most 16. -/
def digitValue (base : Nat) (c : Char) : Option Nat :=
  let n := c.toNat
  let d :=
    if 48 ≤ n ∧ n ≤ 57 then n - 48
    else if 97 ≤ n ∧ n ≤ 102 then n - 87
    else if 65 ≤ n ∧ n ≤ 70 then n - 55
    else base
  if d < base then some d else none

/-- The number digits stand for in a base, the leading ones in `acc`. -/
def digitsValue (base : Nat) : List Char → Nat → Option Nat
  | [], acc => some acc
  | c :: rest, acc =>
    match digitValue base c with
    | some d => digitsValue base rest (acc * base + d)
    | none => none

/-- A number in decimal or `0x` hexadecimal (30_encoding.md R118). -/
def parseNumber : List Char → Option Nat
  | [] => none
  | '0' :: 'x' :: c :: rest => digitsValue 16 (c :: rest) 0
  | c :: rest => digitsValue 10 (c :: rest) 0

/-- The command that words stand for: a mnemonic, and for GEN its index; "An index above 65535 is refused by the assembler"
(30_encoding.md R118). -/
def commandOfWords : List (List Char) → Option Instr
  | [m] =>
    match m.map lowerChar with
    | ['q', 't', 'o', 't', 'a', 'l'] => some .qtotal
    | ['q', 'p', 'a', 'd'] => some .qpad
    | ['q', 'c', 'o', 'u', 'n', 't'] => some .qcount
    | _ => none
  | [m, n] =>
    match m.map lowerChar, parseNumber n with
    | ['g', 'e', 'n'], some k => if (Instr.gen k).wellFormed then some (.gen k) else none
    | _, _ => none
  | _ => none

/-- The command a line stands for (30_encoding.md R118). -/
def parseCommand (line : List Char) : Option Instr :=
  commandOfWords (lineWords line)

/-- The assembled word of a command line (30_encoding.md R118). -/
def assemble (line : List Char) : Option Word :=
  (parseCommand line).map encode

/-- The 8-bit windows a script writes (30_encoding.md R119). -/
inductive ByteMem where
  | payloadMem
  | colorMem
  | customTable
deriving DecidableEq, Repr

/-- The host address of entry 0 of an 8-bit window (20_memory.md R81). -/
def ByteMem.base : ByteMem → Nat
  | .payloadMem => payloadBase
  | .colorMem => colorBase
  | .customTable => tableBase

/-- The 32-bit memories a script writes (30_encoding.md R119). -/
inductive WordMem where
  | phraseMem
  | charlistMem
deriving DecidableEq, Repr

/-- The host address of entry 0 of a 32-bit memory (20_memory.md R81). -/
def WordMem.base : WordMem → Nat
  | .phraseMem => phraseBase
  | .charlistMem => charlistBase

/-- One line of a host script (30_encoding.md R119, R120). -/
inductive ScriptLine where
  /-- `wr NAME, v`. -/
  | wr (name : Reg) (v : Word)
  /-- `wb MEM[e], b0, b1, ...`. -/
  | wb (mem : ByteMem) (e : Nat) (bs : List Byte)
  /-- `ww MEM[e], v0, v1, ...`. -/
  | ww (mem : WordMem) (e : Nat) (vs : List Word)
  /-- `rd NAME`. -/
  | rd (name : Reg)
  /-- `rd FRAME_BUF[a .. b)`. -/
  | rdFrame (a b : Nat)
  /-- `poll`. -/
  | poll
  /-- `cmd X`: "wr CMD, enc(X)", then poll. -/
  | cmd (i : Instr)
deriving DecidableEq, Repr

/-! The text of a script line (30_encoding.md R119; log 16): its words, names and numbers. -/

/-- The line without its comment: "A `;` starts a comment" (30_encoding.md R119). -/
def stripComment (line : List Char) : List Char :=
  line.takeWhile fun c => c ≠ ';'

/-- Set the punctuation of a script line off with blanks, so that each mark is a word of its own. -/
def spacePunctuation (line : List Char) : List Char :=
  line.flatMap fun c => if c = ',' ∨ c = '[' ∨ c = ']' ∨ c = ')' ∨ c = '.' then [' ', c, ' '] else [c]

/-- The register a name stands for (10_state.md R33). -/
def regOfName (name : List Char) : Option Reg :=
  if name = "CMD".toList then some .cmd
  else if name = "STATUS".toList then some .status
  else if name = "RESULT".toList then some .result
  else if name = "FRAME_LEN".toList then some .frameLen
  else if name = "ERR_INFO".toList then some .errInfo
  else if name = "CFG_VARIANT".toList then some .cfgVariant
  else if name = "CFG_DATA_LEN".toList then some .cfgDataLen
  else if name = "CFG_FRAME_COUNT".toList then some .cfgFrameCount
  else if name = "CFG_PHRASE_LEN".toList then some .cfgPhraseLen
  else if name = "CFG_COLORS_LEN".toList then some .cfgColorsLen
  else if name = "CFG_CHARSET".toList then some .cfgCharset
  else if name = "CFG_CHARLIST_LEN".toList then some .cfgCharlistLen
  else if name = "CFG_TABLE_LEN".toList then some .cfgTableLen
  else none

/-- The byte window a name stands for, with its number of entries (30_encoding.md R119, 00_scope.md R8). -/
def byteMemOfName (name : List Char) : Option (ByteMem × Nat) :=
  if name = "PAYLOAD_MEM".toList then some (.payloadMem, 65536)
  else if name = "COLOR_MEM".toList then some (.colorMem, 65536)
  else if name = "CUSTOM_TABLE".toList then some (.customTable, Config.tableCapacity)
  else none

/-- The 32-bit memory a name stands for, with its number of entries (30_encoding.md R119, 00_scope.md R8). -/
def wordMemOfName (name : List Char) : Option (WordMem × Nat) :=
  if name = "PHRASE_MEM".toList then some (.phraseMem, 65536)
  else if name = "CHARLIST_MEM".toList then some (.charlistMem, 65536)
  else none

/-- The values of a list `v0, v1, ...`, each below a bound. -/
def parseValues (bound : Nat) : List (List Char) → Option (List Nat)
  | [n] =>
    match parseNumber n with
    | some v => if v < bound then some [v] else none
    | none => none
  | n :: [','] :: rest =>
    match parseNumber n, parseValues bound rest with
    | some v, some vs => if v < bound then some (v :: vs) else none
    | _, _ => none
  | _ => none

/-- `wr NAME, v`, from its words after `wr`. -/
def parseWr : List (List Char) → Option ScriptLine
  | [name, [','], n] =>
    match regOfName name, parseValues (2 ^ 32) [n] with
    | some r, some [v] => some (.wr r (BitVec.ofNat 32 v))
    | _, _ => none
  | _ => none

/-- `wb MEM[e], b0, b1, ...`, from its words after `wb`; every entry must be one of the window's. -/
def parseWb : List (List Char) → Option ScriptLine
  | name :: ['['] :: e :: [']'] :: [','] :: values =>
    match byteMemOfName name, parseNumber e, parseValues 256 values with
    | some (m, entries), some k, some bs =>
      if k + bs.length ≤ entries then some (.wb m k (bs.map (BitVec.ofNat 8))) else none
    | _, _, _ => none
  | _ => none

/-- `ww MEM[e], v0, v1, ...`, from its words after `ww`; every entry must be one of the memory's. -/
def parseWw : List (List Char) → Option ScriptLine
  | name :: ['['] :: e :: [']'] :: [','] :: values =>
    match wordMemOfName name, parseNumber e, parseValues (2 ^ 32) values with
    | some (m, entries), some k, some vs =>
      if k + vs.length ≤ entries then some (.ww m k (vs.map (BitVec.ofNat 32))) else none
    | _, _, _ => none
  | _ => none

/-- `rd NAME` or `rd FRAME_BUF[a .. b)`, from its words after `rd`. R119 states no bound on `b`. DESIGN CHOICE, log 16: since
the length of FRAME_BUF is a parameter of the block and not of the script, `b` goes up to the end of the host address space
(2097152 bytes above the window's base, 20_memory.md R80), and `a >= b` is a line with no read. -/
def parseRd : List (List Char) → Option ScriptLine
  | [name] => (regOfName name).map .rd
  | [name, ['['], a, ['.'], ['.'], b, [')']] =>
    match parseNumber a, parseNumber b with
    | some i, some j => if name = "FRAME_BUF".toList ∧ j ≤ 2 ^ 21 then some (.rdFrame i j) else none
    | _, _ => none
  | _ => none

/-- The lines that a line of text stands for: none for a blank or a comment, one for an action, and no value for a text
that is not in the syntax of 30_encoding.md R119. -/
def parseLine (line : List Char) : Option (List ScriptLine) :=
  match lineWords (spacePunctuation (stripComment line)) with
  | [] => some []
  | ['w', 'r'] :: rest => (parseWr rest).map fun l => [l]
  | ['w', 'b'] :: rest => (parseWb rest).map fun l => [l]
  | ['w', 'w'] :: rest => (parseWw rest).map fun l => [l]
  | ['r', 'd'] :: rest => (parseRd rest).map fun l => [l]
  | [['p', 'o', 'l', 'l']] => some [.poll]
  | ['c', 'm', 'd'] :: rest => (commandOfWords rest).map fun i => [.cmd i]
  | _ => none

/-- The host write of a 32-bit value to a register (30_encoding.md R119). -/
def writeRegAction (r : Reg) (v : Word) : HostAction :=
  .write .w32 (BitVec.ofNat 23 r.offset) v

/-- The host actions a script line stands for (30_encoding.md R119, R120). -/
def expandLine : ScriptLine → List HostAction
  | .wr r v => [writeRegAction r v]
  | .wb m e bs => bs.zipIdx.map fun p => .write .w8 (BitVec.ofNat 23 (m.base + (e + p.2))) (p.1.setWidth 32)
  | .ww m e vs => vs.zipIdx.map fun p => .write .w32 (BitVec.ofNat 23 (m.base + 4 * (e + p.2))) p.1
  | .rd r => [.read .w32 (BitVec.ofNat 23 r.offset)]
  | .rdFrame a b => (List.range (b - a)).map fun k => .read .w8 (BitVec.ofNat 23 (frameBase + (a + k)))
  | .poll => [.poll]
  | .cmd i => [writeRegAction .cmd (encode i), .poll]

/-- The host actions of a script, line by line (30_encoding.md R119). -/
def expandScript (lines : List ScriptLine) : List HostAction :=
  lines.flatMap expandLine

/-- The host actions of a script's text, one action per line (30_encoding.md R119). -/
def assembleScript : List (List Char) → Option (List HostAction)
  | [] => some []
  | line :: rest =>
    match parseLine line, assembleScript rest with
    | some ls, some as => some (expandScript ls ++ as)
    | _, _ => none

end Sys2Proof.Machine
end

