-- ==== Sys2Proof/Safety.lean ====
section
/-! DEFINITION. The terms statements are made in: what a claim observes (00_scope.md R20), what a command reads (41_chunker.md
R181, R196), what the two completions leave (60_exceptions.md R301, R313), and the invariant of the machine. -/

namespace Sys2Proof.Machine

/-- The frame the host forwards: FRAME_BUF[0 .. FRAME_LEN) (00_scope.md R20). -/
def State.frame (s : State) : List Byte :=
  s.memRead frameBase 0 s.frameLen.toNat

/-- Two states hold the same payload binding: the CFG registers, the parameters, and every byte of the payload memories and
GLYPH_ROM (41_chunker.md R181, R196: "the same configuration registers and payload memories (and the same
parameters)"). -/
structure SamePayload (s t : State) : Prop where
  variant : t.cfgVariant = s.cfgVariant
  dataLen : t.cfgDataLen = s.cfgDataLen
  frameCount : t.cfgFrameCount = s.cfgFrameCount
  phraseLen : t.cfgPhraseLen = s.cfgPhraseLen
  colorsLen : t.cfgColorsLen = s.cfgColorsLen
  charset : t.cfgCharset = s.cfgCharset
  charlistLen : t.cfgCharlistLen = s.cfgCharlistLen
  tableLen : t.cfgTableLen = s.cfgTableLen
  params : t.params = s.params
  bytes : ∀ a, a < frameBase → t.byteAt a = s.byteAt a

/-- FRAME_LEN and every byte of FRAME_BUF are as before (10_state.md R43, R59). -/
structure SameFrame (s t : State) : Prop where
  frameLen : t.frameLen = s.frameLen
  bytes : ∀ a, frameBase ≤ a → t.byteAt a = s.byteAt a

/-- What stands outside the block is as before: the host's coming actions, what it has read, and the environment's
choices. -/
structure SameOutside (s t : State) : Prop where
  pending : t.pending = s.pending
  readLog : t.readLog = s.readLog
  latencies : t.latencies = s.latencies
  draws : t.draws = s.draws

/-- The flags and registers an error completion leaves, with its ERRCODE and ERR_INFO (60_exceptions.md R301); the payload
and what stands outside are as before. -/
structure ErrorCompletion (s t : State) (code : BitVec 4) (info : Nat) : Prop where
  idle : t.inflight = none
  status : t.status = { done := false, err := true, faultSeen := true, overrun := s.status.overrun, errcode := code }
  result : t.result = 0#32
  errInfo : t.errInfo = BitVec.ofNat 32 info
  payload : SamePayload s t
  outside : SameOutside s t

/-- The flags and registers a successful completion leaves, with its RESULT (60_exceptions.md R313); the payload and what
stands outside are as before. -/
structure SuccessCompletion (s t : State) (value : Nat) : Prop where
  idle : t.inflight = none
  status : t.status =
    { done := true, err := false, faultSeen := s.status.faultSeen, overrun := s.status.overrun, errcode := 0#4 }
  result : t.result = BitVec.ofNat 32 value
  errInfo : t.errInfo = 0#32
  payload : SamePayload s t
  outside : SameOutside s t

/-- The places a host may write: CMD or a CFG register and an entry of a 32-bit memory with an aligned 32-bit access, an entry
of an 8-bit payload memory with an 8-bit access (10_state.md R40, 20_memory.md R81, R84, R90). -/
def WritablePlace (width : Width) (a : Nat) : Prop :=
  (width = .w32 ∧ a % 4 = 0 ∧ (a = 0x00 ∨ (0x20 ≤ a ∧ a < 0x40) ∨ (0x100000 ≤ a ∧ a < 0x180000))) ∨
    (width = .w8 ∧ ((0x010000 ≤ a ∧ a < 0x030000) ∨ (0x200000 ≤ a ∧ a < 0x400000)))

/-- Every character of the phrase passes the checks of the validation scan: there is a colour list, its tag is a colour, and
it has a glyph (42_glyph_renderer.md R232). -/
def TextValid (s : State) : Prop :=
  ∀ i, i < s.phraseLen →
    0 < s.colorsLen ∧ (s.colorTag i).toNat ≤ 6 ∧ ∃ g, glyph s (s.charCode i) = .ok g

/-- The invariant of the machine: the memory is in canonical form; DONE and ERR exclude each other and are clear while a
command runs (10_state.md R35, R38); ERR, ERRCODE, FAULT_SEEN, RESULT and ERR_INFO agree (R39, R41, R42, R44); ERRCODE
is no reserved code (60_exceptions.md R302); FRAME_LEN fits FRAME_BUF and is the number of its valid bytes (10_state.md
R43, R59, 43_framing_engine.md R272). -/
structure State.Inv (s : State) : Prop where
  canonical : s.mem.wf
  notBoth : s.status.done = true → s.status.err = false
  busyClears : s.busy = true → s.status.done = false ∧ s.status.err = false
  errHasCode : s.status.err = true ↔ s.status.errcode ≠ 0#4
  codeLegal : s.status.errcode.toNat ≤ 9
  errSeen : s.status.err = true → s.status.faultSeen = true
  errResult : s.status.err = true → s.result = 0#32
  doneInfo : s.status.done = true → s.errInfo = 0#32
  frameFits : s.frameLen.toNat ≤ s.params.frameBufBytes ∧ s.frameLen.toNat ≤ 275
  frameWritten : ∀ f, (s.mem.read (frameBase + f)).isSome = true ↔ f < s.frameLen.toNat

end Sys2Proof.Machine
end

