-- ==== Sys2Proof/Certificates/Slice0/Obligations.lean ====
section
/-! DEFINITION. The statements for the provers, taken from the numbered rules of spec/. -/

open Sys2Proof Sys2Proof.Machine

/-- For every well-formed command (GEN with every index 0 to 65535, and the three queries), decoding the word the encoder
writes gives the command back: no bit of an operand is dropped. (R112, R113, R114, R118) -/
def Obligations.DecodeEncodeRoundTrip : Prop :=
  ∀ i : Instr, i.wellFormed = true → decode (encode i) = .ok i

/-- If a 32-bit word decodes to a command, the command is well formed and the encoder writes that very word for it. (R110,
R112, R113, R114) -/
def Obligations.EncodeDecodeRoundTrip : Prop :=
  ∀ (w : Word) (i : Instr), decode w = .ok i → i.wellFormed = true ∧ encode i = w

/-- A 32-bit word is refused by the decoder if and only if RSV (bits 27:16) is not 0, or the opcode (bits 31:28) is 0 or 5
to 15, or the opcode is 1, 2 or 3 and ARG (bits 15:0) is not 0. (R114, R115) -/
def Obligations.IllegalWordsAreExactlyTheReservedOnes : Prop :=
  ∀ w : Word,
    (∃ e, decode w = .error e) ↔
      (w.extractLsb' 16 12 ≠ 0#12 ∨ w.extractLsb' 28 4 = 0#4 ∨ 5 ≤ (w.extractLsb' 28 4).toNat ∨
        ((w.extractLsb' 28 4 = 1#4 ∨ w.extractLsb' 28 4 = 2#4 ∨ w.extractLsb' 28 4 = 3#4) ∧
          w.extractLsb' 0 16 ≠ 0#16))

/-- The words 0x10000000, 0x20000000, 0x30000000 decode to QTOTAL, QPAD, QCOUNT, and 0x40000000 + n decodes to GEN n for
every n up to 65535. (R113, R118) -/
def Obligations.TableWordsDecodeToTheirCommands : Prop :=
  decode 0x10000000#32 = .ok .qtotal ∧ decode 0x20000000#32 = .ok .qpad ∧ decode 0x30000000#32 = .ok .qcount ∧
    ∀ n, n ≤ 65535 → decode (BitVec.ofNat 32 (0x40000000 + n)) = .ok (.gen n)

/-- For every number n, the line GEN followed by the decimal digits of n, or by 0x and its hexadecimal digits, assembles
to the word 0x40000000 + n when n is at most 65535, and is refused otherwise. (R118) -/
def Obligations.AssemblerWritesGenAndRefusesLargeIndexes : Prop :=
  ∀ n : Nat,
    assemble (['G', 'E', 'N', ' '] ++ Nat.toDigits 10 n) =
        (if n ≤ 65535 then some (BitVec.ofNat 32 (0x40000000 + n)) else none) ∧
      assemble (['G', 'E', 'N', ' ', '0', 'x'] ++ Nat.toDigits 16 n) =
        (if n ≤ 65535 then some (BitVec.ofNat 32 (0x40000000 + n)) else none)

/-- When the word in flight is due (no latency remains) and decodes to the command i, the step is exec of i at that state,
with nothing added around it. (R60, R110, R114) -/
def Obligations.StepRunsDecodedInstruction : Prop :=
  ∀ (s : State) (w : Word) (i : Instr), s.inflight = some { word := w, remaining := 0 } → decode w = .ok i →
    step s = exec i s

/-- When the word in flight is due and does not decode, the step is an error completion with ERRCODE 1 and ERR_INFO equal
to the word, whatever the configuration registers hold. (R303) -/
def Obligations.IllegalWordCompletesWithIllegalCmd : Prop :=
  ∀ (s : State) (w : Word) (e : IllegalWord), s.inflight = some { word := w, remaining := 0 } →
    decode w = .error e →
    ∃ t, step s = .next t ∧ ErrorCompletion s t 1#4 w.toNat ∧ t.errInfo = w

/-- The model's reading of two points (log 3 and log 10): an illegal word written to CMD while idle completes in the very
next step, so no host access comes between, and it leaves FRAME_LEN and FRAME_BUF as they were. (R43, R59, R114,
30_encoding.md section 1) -/
def Obligations.IllegalWordCompletesAtOnceAndLeavesFrame : Prop :=
  ∀ (s : State) (w : Word) (e : IllegalWord) (rest : List HostAction), s.inflight = none →
    s.pending = .write .w32 0x00#23 w :: rest → decode w = .error e →
    ∃ t u, step s = .next t ∧ t.busy = true ∧ step t = .next u ∧ u.busy = false ∧ u.pending = rest ∧ SameFrame s u

/-- With no command in flight, a 32-bit host write of any word, legal or illegal, to offset 0 puts that word in flight
(BUSY = 1), clears DONE, ERR and ERRCODE in the same step, keeps FAULT_SEEN and OVERRUN, and changes no other
register, no memory byte and no parameter; a read of CMD still returns 0. (R35, R36, R37, R38, R41) -/
def Obligations.CmdWriteIssuesTheCommand : Prop :=
  ∀ (s : State) (w : Word) (rest : List HostAction), s.inflight = none →
    s.pending = .write .w32 0x00#23 w :: rest →
    ∃ t n, step s = .next t ∧ t.inflight = some { word := w, remaining := n } ∧ t.busy = true ∧
      t.status = { s.status with done := false, err := false, errcode := 0#4 } ∧
      SamePayload s t ∧ SameFrame s t ∧ t.result = s.result ∧ t.errInfo = s.errInfo ∧
      t.pending = rest ∧ t.readLog = s.readLog ∧ (t.hostRead .w32 0x00).1 = 0#32

/-- With the word of command i in flight and n steps of latency left, and no reset among the host's next n actions,
whatever else the host does: after n steps the command is due on the same payload binding, and step n + 1 is exec of i
there (what one step is: the model's choice, log 13). (R12, R89, R90) -/
def Obligations.CommandCompletesOnThePayloadOfItsIssue : Prop :=
  ∀ (s : State) (w : Word) (i : Instr) (n : Nat), s.inflight = some { word := w, remaining := n } →
    decode w = .ok i → (∀ a ∈ s.pending.take n, a ≠ .reset) →
    ∃ u : State, Host.Core.run core n s = .next u ∧ u.inflight = some { word := w, remaining := 0 } ∧
      SamePayload s u ∧ SameFrame s u ∧ Host.Core.run core (n + 1) s = exec i u

/-- From every state with a command in flight, within one step more than its remaining latency the machine reaches a state
with BUSY = 0, whatever the host does. (R12, R350) -/
def Obligations.EveryAcceptedCommandEnds : Prop :=
  ∀ (s : State) (c : InFlight), s.inflight = some c →
    ∃ k, k ≤ c.remaining + 1 ∧ ∃ t : State, Host.Core.run core k s = .next t ∧ t.busy = false

/-- From every idle state whose next host actions are the expansion of cmd X for a well-formed X: the first step puts the
word of X in flight with some latency n; after n more steps X is due on the payload as it stood; the next step is exec
of X there; and the step after it ends the poll, which has read the STATUS of that completion with bit 0 equal to 0,
and leaves exactly the actions after cmd X (what one step is: the model's choice, log 13). (R120) -/
def Obligations.CmdScriptLineRunsToItsEnd : Prop :=
  ∀ (s : State) (i : Instr) (rest : List HostAction), s.inflight = none → i.wellFormed = true →
    s.pending = expandLine (.cmd i) ++ rest →
    ∃ (n : Nat) (issued due done : State),
      step s = .next issued ∧ issued.inflight = some { word := encode i, remaining := n } ∧
      Host.Core.run core (n + 1) s = .next due ∧ due.inflight = some { word := encode i, remaining := 0 } ∧
      SamePayload s due ∧ exec i due = .next done ∧ Host.Core.run core (n + 2) s = .next done ∧
      done.inflight = none ∧ done.statusWord.getLsbD 0 = false ∧
      Host.Core.run core (n + 3) s =
        .next { done with pending := rest, readLog := done.statusWord :: done.readLog }

/-- The machine has no fault and no refusal: whatever the state, the step gives a next state (an error is a completion,
after which the block returns to idle). (R300, R316, 60_exceptions.md section 1) -/
def Obligations.MachineNeverStops : Prop :=
  ∀ s : State, ∃ t, step s = .next t

/-- The state after reset meets the invariant of the machine (Safety.lean, State.Inv). (R36, R37, R38, R340) -/
def Obligations.ResetStateMeetsInvariant : Prop :=
  State.reset.Inv

/-- From every state that meets the invariant (canonical memory; DONE and ERR exclusive and clear while BUSY; ERR,
ERRCODE, FAULT_SEEN, RESULT, ERR_INFO consistent; no reserved ERRCODE; FRAME_LEN within FRAME_BUF and equal to the
number of its valid bytes), every step leads to a state that meets it. (R35, R38, R39, R41, R42, R43, R44, R59, R302) -/
def Obligations.StepKeepsInvariant : Prop :=
  ∀ s t : State, s.Inv → step s = .next t → t.Inv

/-- In every step: a set FAULT_SEEN or OVERRUN stays set unless the host's next action is the reset event, and a step that
raises ERR leaves FAULT_SEEN set. (R39, R40, R317) -/
def Obligations.StickyFlagsClearOnlyByReset : Prop :=
  ∀ s t : State, step s = .next t →
    (s.status.faultSeen = true → t.status.faultSeen = true ∨ ∃ rest, s.pending = .reset :: rest) ∧
      (s.status.overrun = true → t.status.overrun = true ∨ ∃ rest, s.pending = .reset :: rest) ∧
      (s.status.err = false → t.status.err = true → t.status.faultSeen = true)

/-- If a step changes a STATUS flag or BUSY, it was the completion of the due command (which leaves exactly one of DONE
and ERR set), the issue by a 32-bit host write to CMD in an idle block (which clears DONE, ERR and ERRCODE alone), the
setting of OVERRUN alone by a host write to CMD, a CFG register or a payload memory while a command runs, or the reset
event. (R61) -/
def Obligations.StatusIsWrittenOnlyByFourEvents : Prop :=
  ∀ s t : State, step s = .next t → t.status ≠ s.status ∨ t.busy ≠ s.busy →
    ((∃ w, s.inflight = some { word := w, remaining := 0 }) ∧ t.inflight = none ∧ t.status.done = !t.status.err) ∨
      (s.inflight = none ∧ t.busy = true ∧ (∃ w rest, s.pending = .write .w32 0x00#23 w :: rest) ∧
        t.status = { s.status with done := false, err := false, errcode := 0#4 }) ∨
      (s.busy = true ∧ t.busy = true ∧ t.status = { s.status with overrun := true } ∧
        ∃ width addr v rest, s.pending = .write width addr v :: rest ∧ WritablePlace width addr.toNat) ∨
      ∃ rest, s.pending = .reset :: rest

/-- If a step goes from BUSY = 1 to BUSY = 0, the command in flight was due (and exactly one of DONE and ERR is then set),
or the host's next action was the reset event. (R36, R341) -/
def Obligations.BusyEndsOnlyByCompletionOrReset : Prop :=
  ∀ s t : State, step s = .next t → s.busy = true → t.busy = false →
    ((∃ w, s.inflight = some { word := w, remaining := 0 }) ∧ t.status.done = !t.status.err) ∨
      ∃ rest, s.pending = .reset :: rest

/-- The reset event, from any state, makes every host-visible register read 0: STATUS with all its flags, RESULT,
FRAME_LEN, ERR_INFO and every CFG register; no command is in flight. (R340) -/
def Obligations.ResetEventClearsEveryRegister : Prop :=
  ∀ (s : State) (r : Reg), (s.act .reset).regValue r = 0#32 ∧ (s.act .reset).status = State.reset.status ∧
    (s.act .reset).inflight = none

/-- A reset event taken while a command with latency left runs gives, in that step, a state with BUSY = 0 and neither DONE
nor ERR; every GLYPH_ROM byte reads as before, and every other address holds no written byte (its content is
unspecified again, log 17). (R341, R342, R58) -/
def Obligations.ResetEventAbandonsTheCommand : Prop :=
  ∀ (s : State) (w : Word) (n : Nat) (rest : List HostAction),
    s.inflight = some { word := w, remaining := n + 1 } → s.pending = .reset :: rest →
    ∃ t, step s = .next t ∧ t.busy = false ∧ t.status.done = false ∧ t.status.err = false ∧ t.result = 0#32 ∧
      t.pending = rest ∧ (∀ r, r < 2097152 → t.byteAt (0x400000 + r) = s.byteAt (0x400000 + r)) ∧
      ∀ a, a < 0x400000 ∨ 0x600000 ≤ a → t.mem.read a = none

/-- For every state whose CFG_VARIANT and CFG_PHRASE_LEN are 0 as reset leaves them, whatever the memories, colours,
charset and parameters (a FRAME_BUF of at least 120 bytes): QTOTAL, QPAD, QCOUNT complete with 0, 107, 1, and GEN 0
completes with the frame 01 00 73 02 06 00 00 6B 00 00 6B, 108 zero bytes, 03. (R344, 70_reset_and_hazards.md section
2) -/
def Obligations.EmptyTextPayloadNeedsNoMemory : Prop :=
  ∀ s : State, s.cfgVariant = 0#2 → s.cfgPhraseLen = 0#16 → 120 ≤ s.params.frameBufBytes →
    (∃ t, exec .qtotal s = .next t ∧ SuccessCompletion s t 0 ∧ SameFrame s t) ∧
      (∃ t, exec .qpad s = .next t ∧ SuccessCompletion s t 107 ∧ SameFrame s t) ∧
      (∃ t, exec .qcount s = .next t ∧ SuccessCompletion s t 1 ∧ SameFrame s t) ∧
      ∃ t, exec (.gen 0) s = .next t ∧ SuccessCompletion s t 120 ∧ t.frameLen = 120#9 ∧
        t.frame = [0x01#8, 0x00#8, 0x73#8, 0x02#8, 0x06#8, 0x00#8, 0x00#8, 0x6B#8, 0x00#8, 0x00#8, 0x6B#8] ++
          List.replicate 108 0x00#8 ++ [0x03#8]

/-- For every state whose CFG_VARIANT is not 3, QPAD completes successfully with RESULT 107 for Text, 26 for Image, 27 for
Animation, and changes nothing else but STATUS and ERR_INFO: the payload, FRAME_LEN and FRAME_BUF are as before.
(R150, R157) -/
def Obligations.QpadReturnsHeaderPadding : Prop :=
  ∀ s : State, s.cfgVariant ≠ 3#2 →
    ∃ t, exec .qpad s = .next t ∧ SameFrame s t ∧
      SuccessCompletion s t (if s.cfgVariant = 0#2 then 107 else if s.cfgVariant = 1#2 then 26 else 27)

/-- For every state whose CFG_VARIANT is 1 or 2, QTOTAL completes successfully with RESULT = CFG_DATA_LEN, and the
payload, FRAME_LEN and FRAME_BUF are as before. (R151, R156) -/
def Obligations.QtotalOfImageOrAnimationIsDataLen : Prop :=
  ∀ s : State, s.cfgVariant = 1#2 ∨ s.cfgVariant = 2#2 →
    ∃ t, exec .qtotal s = .next t ∧ SuccessCompletion s t s.cfgDataLen.toNat ∧ SameFrame s t

/-- For every state whose CFG_VARIANT is 1 or 2, QCOUNT completes successfully with the least q such that 128 * q is at
least CFG_DATA_LEN plus the header padding, and the payload, FRAME_LEN and FRAME_BUF are as before. (R153, R154, R158) -/
def Obligations.QcountOfImageOrAnimationIsCeilDiv : Prop :=
  ∀ s : State, s.cfgVariant = 1#2 ∨ s.cfgVariant = 2#2 →
    ∃ t q, exec .qcount s = .next t ∧ SuccessCompletion s t q ∧ SameFrame s t ∧
      s.cfgDataLen.toNat + (if s.cfgVariant = 1#2 then 26 else 27) ≤ 128 * q ∧
      ∀ q', s.cfgDataLen.toNat + (if s.cfgVariant = 1#2 then 26 else 27) ≤ 128 * q' → q ≤ q'

/-- For every Text payload whose characters all pass the validation scan: QTOTAL completes with the length of the Text
stream under TEXT_TOTAL_RULE = GATED, and with three times the sum of the span lengths under PER_CHAR_X3; QCOUNT
completes with that total plus 107, divided by 128 and rounded up; FRAME_LEN and FRAME_BUF are as before. (R152, R153,
R154, R156, R158, R231) -/
def Obligations.QueriesOfValidText : Prop :=
  ∀ (s : State) (total : Nat), s.cfgVariant = 0#2 → TextValid s →
    total = (match s.params.textTotalRule with
      | .gated => (textStream s).length
      | .perCharX3 => 3 * ((List.range s.phraseLen).map fun i => (span s i).length).sum) →
    (∃ t, exec .qtotal s = .next t ∧ SuccessCompletion s t total ∧ SameFrame s t) ∧
      ∃ t, exec .qcount s = .next t ∧ SuccessCompletion s t ((total + 107 + 127) / 128) ∧ SameFrame s t

/-- For every payload the planner accepts, the packet count is at least 1, and it is exactly 1 when the total content
bytes are 0. (R155) -/
def Obligations.PacketCountIsAtLeastOne : Prop :=
  ∀ (s : State) (v : Variant) (total : Nat), plan s = .ok (v, total) →
    1 ≤ packetCount (total + headerPadding v) ∧ (total = 0 → packetCount (total + headerPadding v) = 1)

/-- For any two states that hold the same payload binding and parameters, however they differ in flags, results, FRAME_BUF
and history, each of QTOTAL, QPAD and QCOUNT completes with the same RESULT, ERR_INFO, DONE, ERR and ERRCODE. (R159) -/
def Obligations.QueriesDependOnlyOnThePayload : Prop :=
  ∀ (i : Instr) (s t s' t' : State), i = .qtotal ∨ i = .qpad ∨ i = .qcount → SamePayload s t →
    exec i s = .next s' → exec i t = .next t' →
    t'.result = s'.result ∧ t'.errInfo = s'.errInfo ∧ t'.status.done = s'.status.done ∧
      t'.status.err = s'.status.err ∧ t'.status.errcode = s'.status.errcode

/-- For every state whose CFG_VARIANT is 3, each of QTOTAL, QPAD, QCOUNT and GEN (any index) is an error completion with
ERRCODE 2 and ERR_INFO 0, whatever the payload memories hold; the queries leave FRAME_LEN and FRAME_BUF, GEN sets
FRAME_LEN to 0. (R304, R301) -/
def Obligations.ReservedVariantEndsInBadVariant : Prop :=
  ∀ (s : State) (i : Instr), s.cfgVariant = 3#2 →
    ∃ t, exec i s = .next t ∧ ErrorCompletion s t 2#4 0 ∧
      ((∃ n, i = .gen n) → t.frameLen = 0#9) ∧ ((∀ n, i ≠ .gen n) → SameFrame s t)

/-- For every Text payload with CFG_COLORS_LEN = 0 and CFG_PHRASE_LEN > 0, QTOTAL, QCOUNT and GEN (any index) are error
completions with ERRCODE 3 and ERR_INFO 0. (R305) -/
def Obligations.TextWithoutColoursEndsInNoColors : Prop :=
  ∀ (s : State) (i : Instr), s.cfgVariant = 0#2 → s.cfgColorsLen = 0#16 → s.cfgPhraseLen ≠ 0#16 → i ≠ .qpad →
    ∃ t, exec i s = .next t ∧ ErrorCompletion s t 3#4 0

/-- For every Text payload with a colour list: if the characters before position i pass and character i has a tag above 6,
QTOTAL, QCOUNT and GEN (any index) end in BAD_COLOR with ERR_INFO i; if its tag is legal, they end in EMPTY_CHARLIST
in custom mode with an empty list, in GLYPH_RANGE in custom mode when 32 * (pos + 1) exceeds min(CFG_TABLE_LEN,
2097152), with pos the first list position of its code or 0 for an absent one, and in GLYPH_RANGE in built-in mode for
a code of 65536 or more. (R222, R232, R306, R307, R308, R312) -/
def Obligations.FirstBadCharacterDecidesTheScanError : Prop :=
  ∀ (s : State) (c : Instr) (i : Nat), s.cfgVariant = 0#2 → 0 < s.colorsLen → i < s.phraseLen → c ≠ .qpad →
    (∀ j, j < i → (s.colorTag j).toNat ≤ 6 ∧ ∃ g, glyph s (s.charCode j) = .ok g) →
    (6 < (s.colorTag i).toNat → ∃ t, exec c s = .next t ∧ ErrorCompletion s t 4#4 i) ∧
      ((s.colorTag i).toNat ≤ 6 → s.cfgCharset = 1#1 → s.cfgCharlistLen = 0#16 →
        ∃ t, exec c s = .next t ∧ ErrorCompletion s t 5#4 i) ∧
      (∀ pos, (s.colorTag i).toNat ≤ 6 → s.cfgCharset = 1#1 → 0 < s.charlistLen →
        ((pos < s.charlistLen ∧ s.listCode pos = s.charCode i ∧ ∀ j, j < pos → s.listCode j ≠ s.charCode i) ∨
          (pos = 0 ∧ ∀ j, j < s.charlistLen → s.listCode j ≠ s.charCode i)) →
        min s.cfgTableLen.toNat 2097152 < 32 * (pos + 1) →
        ∃ t, exec c s = .next t ∧ ErrorCompletion s t 6#4 i) ∧
      ((s.colorTag i).toNat ≤ 6 → s.cfgCharset = 0#1 → 65536 ≤ (s.charCode i).toNat →
        ∃ t, exec c s = .next t ∧ ErrorCompletion s t 6#4 i)

/-- For every payload the planner accepts whose whole size is above 65535, GEN of any index is an error completion with
ERRCODE 7 and ERR_INFO the whole size; FRAME_LEN is 0 and no byte of FRAME_BUF keeps a written value. (R198, R309,
R312) -/
def Obligations.GenSizeErrorComesBeforeIndex : Prop :=
  ∀ (s : State) (v : Variant) (total index : Nat), plan s = .ok (v, total) → 65535 < total + headerPadding v →
    ∃ t, exec (.gen index) s = .next t ∧ ErrorCompletion s t 7#4 (total + headerPadding v) ∧ t.frameLen = 0#9 ∧
      ∀ f, t.mem.read (frameBase + f) = none

/-- For every payload the planner accepts with a whole size of at most 65535, GEN of an index at or above the packet count
is an error completion with ERRCODE 8 and ERR_INFO the index, and it writes no frame. (R182, R310) -/
def Obligations.GenIndexOutOfRangeEndsInIndex : Prop :=
  ∀ (s : State) (v : Variant) (total index : Nat), plan s = .ok (v, total) → total + headerPadding v ≤ 65535 →
    (total + headerPadding v + 127) / 128 ≤ index →
    ∃ t, exec (.gen index) s = .next t ∧ ErrorCompletion s t 8#4 index ∧ t.frameLen = 0#9 ∧
      ∀ f, t.mem.read (frameBase + f) = none

/-- For every accepted payload and every legal index whose frame is longer than FRAME_BUF_BYTES, GEN is an error
completion with ERRCODE 9 and ERR_INFO the frame length, and it writes no frame. (R273, R311) -/
def Obligations.GenOverlongFrameEndsInFrameOverflow : Prop :=
  ∀ (s : State) (v : Variant) (total index : Nat), plan s = .ok (v, total) → total + headerPadding v ≤ 65535 →
    index < packetCount (total + headerPadding v) →
    s.params.frameBufBytes < (packetFrame s v index total).length →
    ∃ t, exec (.gen index) s = .next t ∧ ErrorCompletion s t 9#4 (packetFrame s v index total).length ∧
      t.frameLen = 0#9 ∧ ∀ f, t.mem.read (frameBase + f) = none

/-- For every accepted payload with a whole size of at most 65535 and every legal index, the frame has at most 275 bytes;
and GEN never ends in ERRCODE 9 when FRAME_BUF_BYTES is at least 275. (R272) -/
def Obligations.FrameOverflowIsUnreachableByDefault : Prop :=
  (∀ (s : State) (v : Variant) (total index : Nat), plan s = .ok (v, total) → total + headerPadding v ≤ 65535 →
      index < packetCount (total + headerPadding v) → (packetFrame s v index total).length ≤ 275) ∧
    ∀ (s t : State) (index : Nat), 275 ≤ s.params.frameBufBytes → exec (.gen index) s = .next t →
      t.status.errcode ≠ 9#4

/-- For every accepted payload with a whole size of at most 65535, every index below the packet count and a FRAME_BUF that
holds the frame: GEN completes successfully with RESULT = FRAME_LEN = the frame's length and FRAME_BUF[0 .. FRAME_LEN)
= the frame; every other byte of FRAME_BUF becomes unspecified, and the payload and every byte outside FRAME_BUF are
as before. (R180, R197, R313) -/
def Obligations.GenCompletesWithThePacketFrame : Prop :=
  ∀ (s : State) (v : Variant) (total index : Nat), plan s = .ok (v, total) → total + headerPadding v ≤ 65535 →
    index < packetCount (total + headerPadding v) →
    (packetFrame s v index total).length ≤ s.params.frameBufBytes →
    ∃ t, exec (.gen index) s = .next t ∧ SuccessCompletion s t (packetFrame s v index total).length ∧
      t.frameLen.toNat = (packetFrame s v index total).length ∧ t.frame = packetFrame s v index total ∧
      (∀ f, (packetFrame s v index total).length ≤ f → t.mem.read (frameBase + f) = none) ∧
      ∀ a, a < frameBase → t.mem.read a = s.mem.read a

/-- For every Image payload of len bytes with len + 26 at most 65535 and a FRAME_BUF of at least 275 bytes: GEN 0
completes with the frame of 24 reserved zeros and the big-endian len (in HDR_LAYOUT's order) followed by the first
min(len, 102) data bytes, and GEN k with 1 <= k and 128 * k < len + 26 with the frame of the data bytes from 128 * k -
26 on, at most 128 of them. (R180, R185, R186, R187, R191) -/
def Obligations.GenOfImageWritesHeaderAndData : Prop :=
  ∀ (s : State) (index : Nat), s.cfgVariant = 1#2 → s.dataLen + 26 ≤ 65535 → 128 * index < s.dataLen + 26 →
    275 ≤ s.params.frameBufBytes →
    ∃ t, exec (.gen index) s = .next t ∧ t.status.done = true ∧ SamePayload s t ∧
      t.frame = makeFrame 0x03#8 (makeSubpacket (s.dataLen + 26) index
        (if index = 0 then
          (match s.params.hdrLayout with
            | .reservedFirst => List.replicate 24 0x00#8 ++ be16 s.dataLen
            | .fieldsFirst => be16 s.dataLen ++ List.replicate 24 0x00#8) ++
            s.memRead payloadBase 0 (min s.dataLen 102)
        else s.memRead payloadBase (128 * index - 26) (min (s.dataLen - (128 * index - 26)) 128)))

/-- For every Animation payload of len bytes with len + 27 at most 65535 and a FRAME_BUF of at least 275 bytes: GEN 0
completes with the frame of 24 reserved zeros and CFG_FRAME_COUNT, 01, F4 (in HDR_LAYOUT's order) followed by the
first min(len, 101) data bytes, and GEN k with 1 <= k and 128 * k < len + 27 with the frame of the data bytes from 128
* k - 27 on, at most 128 of them. (R180, R185, R186, R187, R192) -/
def Obligations.GenOfAnimationWritesHeaderAndData : Prop :=
  ∀ (s : State) (index : Nat), s.cfgVariant = 2#2 → s.dataLen + 27 ≤ 65535 → 128 * index < s.dataLen + 27 →
    275 ≤ s.params.frameBufBytes →
    ∃ t, exec (.gen index) s = .next t ∧ t.status.done = true ∧ SamePayload s t ∧
      t.frame = makeFrame 0x04#8 (makeSubpacket (s.dataLen + 27) index
        (if index = 0 then
          (match s.params.hdrLayout with
            | .reservedFirst => List.replicate 24 0x00#8 ++ [s.cfgFrameCount, 0x01#8, 0xF4#8]
            | .fieldsFirst => [s.cfgFrameCount, 0x01#8, 0xF4#8] ++ List.replicate 24 0x00#8) ++
            s.memRead payloadBase 0 (min s.dataLen 101)
        else s.memRead payloadBase (128 * index - 27) (min (s.dataLen - (128 * index - 27)) 128)))

/-- For every Text payload whose characters all pass the scan, under TEXT_TOTAL_RULE = GATED, with a stream of n bytes, n
+ 107 at most 65535 and a FRAME_BUF of at least 275 bytes: GEN 0 completes with the frame of the 107-byte header (the
big-endian n at its place, all else 0) followed by the first 21 stream bytes, and GEN k with 1 <= k and 128 * k < n +
107 with the frame of the stream bytes from 128 * k - 107 on, at most 128 of them. (R180, R185, R186, R187, R190,
R231, R233) -/
def Obligations.GenOfTextWritesHeaderAndStream : Prop :=
  ∀ (s : State) (index : Nat), s.cfgVariant = 0#2 → s.params.textTotalRule = .gated → TextValid s →
    (textStream s).length + 107 ≤ 65535 → 128 * index < (textStream s).length + 107 →
    275 ≤ s.params.frameBufBytes →
    ∃ t, exec (.gen index) s = .next t ∧ t.status.done = true ∧ SamePayload s t ∧
      t.frame = makeFrame 0x02#8 (makeSubpacket ((textStream s).length + 107) index
        (if index = 0 then
          (match s.params.hdrLayout with
            | .reservedFirst => List.replicate 105 0x00#8 ++ be16 (textStream s).length
            | .fieldsFirst => List.replicate 81 0x00#8 ++ be16 (textStream s).length ++ List.replicate 24 0x00#8) ++
            (textStream s).take 21
        else ((textStream s).drop (128 * index - 107)).take 128))

/-- For any two states that hold the same payload binding and parameters, however they differ in flags, results, FRAME_BUF
and history: GEN of the same index leaves the same FRAME_LEN, the same frame FRAME_BUF[0 .. FRAME_LEN), the same
RESULT and ERR_INFO and the same DONE, ERR and ERRCODE. (R196) -/
def Obligations.GenDependsOnlyOnIndexAndPayload : Prop :=
  ∀ (index : Nat) (s t s' t' : State), SamePayload s t →
    exec (.gen index) s = .next s' → exec (.gen index) t = .next t' →
    t'.frameLen = s'.frameLen ∧ t'.frame = s'.frame ∧ t'.result = s'.result ∧ t'.errInfo = s'.errInfo ∧
      t'.status.done = s'.status.done ∧ t'.status.err = s'.status.err ∧ t'.status.errcode = s'.status.errcode

/-- For every command and state, exec answers a next state with BUSY = 0 in which the payload binding and every memory
byte below FRAME_BUF, OVERRUN and what stands outside are as before, exactly one of DONE and ERR is set, ERRCODE is 0
exactly on success, and the queries leave FRAME_LEN and FRAME_BUF. (R86, R181, R301, R313) -/
def Obligations.CommandsNeverWriteThePayload : Prop :=
  ∀ (i : Instr) (s : State), ∃ t, exec i s = .next t ∧ t.busy = false ∧ SamePayload s t ∧ SameOutside s t ∧
    (∀ a, a < frameBase → t.mem.read a = s.mem.read a) ∧ t.status.overrun = s.status.overrun ∧
    t.status.done = !t.status.err ∧ (t.status.errcode = 0#4 ↔ t.status.done = true) ∧
    t.status.faultSeen = (s.status.faultSeen || t.status.err) ∧ (i = .qtotal ∨ i = .qpad ∨ i = .qcount → SameFrame s t)

/-- For every accepted payload, the concatenation of the bodies of all its packets in index order is the header followed
by the content bytes 0 to total - 1: the content ranges meet without gap or overlap. (R183, R184, R185, R186, R188) -/
def Obligations.PacketsReassembleTheLogicalStream : Prop :=
  ∀ (s : State) (v : Variant) (total : Nat), plan s = .ok (v, total) →
    ((List.range (packetCount (total + headerPadding v))).flatMap fun k => makeBody s v k total) =
      header s v total ++ content s v 0 total

/-- For every accepted payload and legal index: packet 0's body is the padding plus min(total, 128 - pad) bytes, between
pad and 128, and exactly 128 when total >= 128 - pad; a continuation body has min(total - already_sent, 128) bytes,
from 1 to 128. (R193) -/
def Obligations.BodyLengthsFitThePacket : Prop :=
  ∀ (s : State) (v : Variant) (total index : Nat), plan s = .ok (v, total) →
    index < packetCount (total + headerPadding v) →
    (index = 0 → (makeBody s v index total).length = headerPadding v + min total (128 - headerPadding v) ∧
        headerPadding v ≤ (makeBody s v index total).length ∧ (makeBody s v index total).length ≤ 128 ∧
        ((makeBody s v index total).length = 128 ↔ 128 - headerPadding v ≤ total)) ∧
      (index ≠ 0 →
        (makeBody s v index total).length = min (total - ((128 - headerPadding v) + 128 * (index - 1))) 128 ∧
        1 ≤ (makeBody s v index total).length ∧ (makeBody s v index total).length ≤ 128)

/-- For every accepted payload, packet count - 1 carries total - already_sent(count - 1) content bytes; for a count of at
least 2 that is from 1 to 128, and 128 exactly when the whole size is a multiple of 128. (R195) -/
def Obligations.LastPacketCarriesTheRemainder : Prop :=
  ∀ (s : State) (v : Variant) (total : Nat), plan s = .ok (v, total) →
    let pad := headerPadding v
    let last := packetCount (total + pad) - 1
    contentLength last total pad = total - alreadySent last pad ∧
      (2 ≤ packetCount (total + pad) →
        1 ≤ contentLength last total pad ∧ contentLength last total pad ≤ 128 ∧
          (contentLength last total pad = 128 ↔ (total + pad) % 128 = 0))

/-- For every state, offset a and length m, the skip/take loop over the gated spans returns the bytes of the Text stream
from a on, m of them, and 0x00 for every position at or beyond the end of the stream. (R233, R234) -/
def Obligations.WindowIsTheZeroExtendedStreamSlice : Prop :=
  ∀ (s : State) (a m : Nat),
    window s a m = ((textStream s).drop a).take m ++ List.replicate (m - ((textStream s).length - a)) 0x00#8

/-- For every byte sequence, unescape(escape(s)) = s, and the escaped length is the length plus the number of bytes equal
to 1, 2 or 3. (R264, R265, R271) -/
def Obligations.UnescapeInvertsEscape : Prop :=
  ∀ s : List Byte, unescape (escape s) = s ∧
    (escape s).length = s.length + s.countP fun b => b = 0x01#8 ∨ b = 0x02#8 ∨ b = 0x03#8

/-- For every GEN that completes successfully from any state: the frame in FRAME_BUF[0 .. FRAME_LEN) starts with 0x01 and
ends with 0x03; no other byte is 0x01 or 0x03; bytes 1 and 2 hold no control byte; and every 0x02 is followed by 0x05,
0x06 or 0x07. (R274, 43_framing_engine.md section 3) -/
def Obligations.FramesAreWellFormed : Prop :=
  ∀ (s t : State) (index : Nat), exec (.gen index) s = .next t → t.status.done = true →
    ∃ inner : List Byte, t.frame = [0x01#8] ++ inner ++ [0x03#8] ∧ 2 ≤ inner.length ∧
      (∀ k b, inner[k]? = some b → b ≠ 0x01#8 ∧ b ≠ 0x03#8 ∧
        (b = 0x02#8 → 2 ≤ k ∧ (inner[k + 1]? = some 0x05#8 ∨ inner[k + 1]? = some 0x06#8 ∨
          inner[k + 1]? = some 0x07#8)))

/-- For every accepted payload and legal index with a frame that fits: GEN leaves RESULT and FRAME_LEN equal to 4 + (8 +
L) + E, with L the body length and E the number of control bytes among the content type and the sub-packet. (R270) -/
def Obligations.FrameLengthCountsControlBytes : Prop :=
  ∀ (s : State) (v : Variant) (total index : Nat), plan s = .ok (v, total) → total + headerPadding v ≤ 65535 →
    index < packetCount (total + headerPadding v) →
    (packetFrame s v index total).length ≤ s.params.frameBufBytes →
    ∃ t, exec (.gen index) s = .next t ∧ t.result.toNat = t.frameLen.toNat ∧
      t.frameLen.toNat = 4 + (8 + (makeBody s v index total).length) +
        (contentType v :: makeSubpacket (total + headerPadding v) index (makeBody s v index total)).countP
          fun b => b = 0x01#8 ∨ b = 0x02#8 ∨ b = 0x03#8

/-- For every GEN that completes successfully from any state, with the planned total, the whole size w = total + padding
and the packet's body of L bytes: un-escaping the frame between its 3-byte start and its end marker gives the
variant's content type, then 00, w / 256, w mod 256, index / 256, index mod 256, L, the body, and the XOR of all sub-
packet bytes before it; w is at most 65535, the index at most 511, L from 1 to 128; and the frame starts with 01, 00,
8 + L. (R260, R261, R262, R263, R268, R269, R271) -/
def Obligations.FrameUnescapesToItsSubpacket : Prop :=
  ∀ (s t : State) (index : Nat), exec (.gen index) s = .next t → t.status.done = true →
    ∃ (v : Variant) (total : Nat), plan s = .ok (v, total) ∧
      let whole := total + headerPadding v
      let body := makeBody s v index total
      let ct : Byte := if s.cfgVariant = 0#2 then 0x02#8 else if s.cfgVariant = 1#2 then 0x03#8 else 0x04#8
      let pre : List Byte :=
        [0x00#8, BitVec.ofNat 8 (whole / 256), BitVec.ofNat 8 (whole % 256), BitVec.ofNat 8 (index / 256),
          BitVec.ofNat 8 (index % 256), BitVec.ofNat 8 body.length] ++ body
      whole ≤ 65535 ∧ index ≤ 511 ∧ 1 ≤ body.length ∧ body.length ≤ 128 ∧
        unescape ((t.frame.drop 3).dropLast) = ct :: (pre ++ [pre.foldl (fun x y => x ^^^ y) 0x00#8]) ∧
        t.frame.take 3 = [0x01#8, 0x00#8, BitVec.ofNat 8 (8 + body.length)]

/-- For every 32-byte glyph: with no non-zero pair it trims to 16 zero bytes; with kf the first and kl the last non-zero
pair it trims to the bytes 2*kf to 2*kl + 1; with the terminator the span is 18 bytes in the first case and 2*(kl - kf
+ 1) + 2 in the second, an even number from 4 to 34. (R224, R226) -/
def Obligations.TrimKeepsFirstToLastNonzeroPair : Prop :=
  ∀ g : List Byte, g.length = 32 →
    ((∀ k, k < 16 → g[2 * k]? = some 0x00#8 ∧ g[2 * k + 1]? = some 0x00#8) →
        trim g = List.replicate 16 0x00#8 ∧ (trim g ++ zeros Config.terminator).length = 18) ∧
      ∀ kf kl, kf ≤ kl → kl < 16 →
        (∀ k, k < 16 → (k < kf ∨ kl < k) → g[2 * k]? = some 0x00#8 ∧ g[2 * k + 1]? = some 0x00#8) →
        ¬(g[2 * kf]? = some 0x00#8 ∧ g[2 * kf + 1]? = some 0x00#8) →
        ¬(g[2 * kl]? = some 0x00#8 ∧ g[2 * kl + 1]? = some 0x00#8) →
        trim g = (g.drop (2 * kf)).take (2 * kl + 2 - 2 * kf) ∧
          (trim g ++ zeros Config.terminator).length = 2 * (kl - kf + 1) + 2 ∧
          (trim g ++ zeros Config.terminator).length % 2 = 0 ∧
          4 ≤ (trim g ++ zeros Config.terminator).length ∧ (trim g ++ zeros Config.terminator).length ≤ 34

/-- For every character whose tag is a colour: it emits its span in the Red pass for White, Red, Yellow, Pink, in the
Green pass for White, Green, Yellow, Cyan, in the Blue pass for White, Blue, Pink, Cyan, and 16 zero bytes otherwise.
(R227, R230) -/
def Obligations.GatedSpanFollowsTheChannelTable : Prop :=
  ∀ (s : State) (i : Nat), (s.colorTag i).toNat ≤ 6 →
    gatedSpan s i .red =
        (if (s.colorTag i).toNat ∈ [0, 1, 4, 5] then span s i else List.replicate 16 0x00#8) ∧
      gatedSpan s i .green =
        (if (s.colorTag i).toNat ∈ [0, 2, 4, 6] then span s i else List.replicate 16 0x00#8) ∧
      gatedSpan s i .blue =
        (if (s.colorTag i).toNat ∈ [0, 3, 5, 6] then span s i else List.replicate 16 0x00#8)

/-- For every phrase whose selected tags are colours, the length of the Text stream is the sum over characters and passes
of the span length where the colour contains the channel and of 16 otherwise; it is three times the sum of the span
lengths when every character is White. The sum of the span lengths does not depend on the colours. (R235) -/
def Obligations.StreamLengthSumsGatedSpans : Prop :=
  ∀ s : State, (∀ i, i < s.phraseLen → (s.colorTag i).toNat ≤ 6) →
    (textStream s).length = ((List.range s.phraseLen).map fun i =>
        (passes.map fun p => if tagContains (s.colorTag i) p then (span s i).length else 16).sum).sum ∧
      ((∀ i, i < s.phraseLen → s.colorTag i = 0x00#8) → (textStream s).length = 3 * spanSum s) ∧
      ∀ t : State, t.phraseLen = s.phraseLen → t.cfgCharset = s.cfgCharset → t.charlistLen = s.charlistLen →
        t.cfgTableLen = s.cfgTableLen →
        (∀ a, a < frameBase → (a < colorBase ∨ phraseBase ≤ a) → t.byteAt a = s.byteAt a) → spanSum t = spanSum s

/-- For every code: an empty list fails with EMPTY_CHARLIST; otherwise the position is the least one whose entry equals
the code, or 0 if none does, and the lookup fails with GLYPH_RANGE when 32 * (pos + 1) exceeds min(CFG_TABLE_LEN,
2097152) and returns the 32 table bytes from 32 * pos otherwise. (R222, R314) -/
def Obligations.CustomLookupUsesTheFirstMatchOrPositionZero : Prop :=
  ∀ (s : State) (c : Word),
    (s.charlistLen = 0 → glyphCustom s c = .error .emptyCharlist) ∧
      ∀ pos, 0 < s.charlistLen →
        ((pos < s.charlistLen ∧ s.listCode pos = c ∧ ∀ j, j < pos → s.listCode j ≠ c) ∨
          (pos = 0 ∧ ∀ j, j < s.charlistLen → s.listCode j ≠ c)) →
        glyphCustom s c =
          if min s.cfgTableLen.toNat 2097152 < 32 * (pos + 1) then .error .glyphRange
          else .ok (s.memRead tableBase (32 * pos) 32)

/-- For every code c below 65536 the built-in lookup returns the 32 GLYPH_ROM bytes from 32 * c on; for every other code
it fails with GLYPH_RANGE. (R221) -/
def Obligations.BuiltinLookupReadsTheRomSlot : Prop :=
  ∀ (s : State) (c : Word),
    (c.toNat < 65536 → glyphBuiltin s c = .ok ((List.range 32).map fun k => s.byteAt (0x400000 + (32 * c.toNat + k)))) ∧
      (65536 ≤ c.toNat → glyphBuiltin s c = .error .glyphRange)

/-- While a command is in flight, a 32-bit write to CMD or a CFG register, an 8-bit write to PAYLOAD_MEM, COLOR_MEM or
CUSTOM_TABLE and an aligned 32-bit write to PHRASE_MEM or CHARLIST_MEM change nothing but STATUS.OVERRUN, which they
set. (R90, R318) -/
def Obligations.WritesWhileBusyAreDropped : Prop :=
  ∀ (s : State) (a : Nat) (v : Word), s.busy = true →
    (a ∈ [0x00, 0x20, 0x24, 0x28, 0x2C, 0x30, 0x34, 0x38, 0x3C] ∨
        (0x100000 ≤ a ∧ a < 0x180000 ∧ a % 4 = 0) →
      s.hostWrite .w32 a v = { s with status := { s.status with overrun := true } }) ∧
    ((0x010000 ≤ a ∧ a < 0x030000) ∨ (0x200000 ≤ a ∧ a < 0x400000) →
      s.hostWrite .w8 a v = { s with status := { s.status with overrun := true } })

/-- Whether or not a command runs, a host write leaves the whole state as it was when its address is a read-only or
reserved register offset, a reserved range, GLYPH_ROM, FRAME_BUF or above, when its width is not the entry size of the
window, or when it is a misaligned 32-bit access. That such a write sets no OVERRUN while BUSY is the model's reading
(log 9, log 12). (R34, R81, R85) -/
def Obligations.IgnoredWritesChangeNothing : Prop :=
  ∀ (s : State) (width : Width) (a : Nat) (v : Word),
    ((0x04 ≤ a ∧ a < 0x20) ∨ (0x40 ≤ a ∧ a < 0x010000) ∨ (0x030000 ≤ a ∧ a < 0x100000) ∨
        (0x180000 ≤ a ∧ a < 0x200000) ∨ 0x400000 ≤ a) ∨
      (width = .w32 ∧ a % 4 ≠ 0) ∨
      (width ≠ .w32 ∧ (a < 0x100 ∨ (0x100000 ≤ a ∧ a < 0x180000))) ∨
      (width ≠ .w8 ∧ ((0x010000 ≤ a ∧ a < 0x030000) ∨ (0x200000 ≤ a ∧ a < 0x400000))) →
    s.hostWrite width a v = s

/-- With no command in flight, a 32-bit write to each CFG offset stores the value's used bits in the register of that
offset and changes nothing else of the state; a read of that offset then returns them with every other bit 0, and
every other register offset reads as before. (R33, R34, R45, R46, R47, R48, R49, R50, R51, R52) -/
def Obligations.CfgRegistersStoreTheirUsedBits : Prop :=
  ∀ (s : State) (v : Word), s.busy = false →
    s.hostWrite .w32 0x20 v = { s with cfgVariant := v.setWidth 2 } ∧
    s.hostWrite .w32 0x24 v = { s with cfgDataLen := v.setWidth 16 } ∧
    s.hostWrite .w32 0x28 v = { s with cfgFrameCount := v.setWidth 8 } ∧
    s.hostWrite .w32 0x2C v = { s with cfgPhraseLen := v.setWidth 16 } ∧
    s.hostWrite .w32 0x30 v = { s with cfgColorsLen := v.setWidth 16 } ∧
    s.hostWrite .w32 0x34 v = { s with cfgCharset := v.setWidth 1 } ∧
    s.hostWrite .w32 0x38 v = { s with cfgCharlistLen := v.setWidth 16 } ∧
    s.hostWrite .w32 0x3C v = { s with cfgTableLen := v.setWidth 22 } ∧
    ∀ p ∈ [(0x20, 2), (0x24, 16), (0x28, 8), (0x2C, 16), (0x30, 16), (0x34, 1), (0x38, 16), (0x3C, 22)],
      ((s.hostWrite .w32 p.1 v).hostRead .w32 p.1).1 = BitVec.ofNat 32 (v.toNat % 2 ^ p.2) ∧
        (s.hostWrite .w32 p.1 v).mem = s.mem ∧
        ∀ q, q < 0x100 → q ≠ p.1 → q % 4 = 0 →
          ((s.hostWrite .w32 p.1 v).hostRead .w32 q).1 = (s.hostRead .w32 q).1

/-- With no command in flight: an 8-bit write to an entry of an 8-bit payload window reads back its low byte, an aligned
32-bit write to an entry of a 32-bit window reads back the word, and every byte outside the entry is unchanged. (R81,
R84, R87) -/
def Obligations.MemoryEntriesReadBackWhatWasWritten : Prop :=
  ∀ (s : State) (a : Nat) (v : Word), s.busy = false →
    ((0x010000 ≤ a ∧ a < 0x030000) ∨ (0x200000 ≤ a ∧ a < 0x400000) →
      ((s.hostWrite .w8 a v).hostRead .w8 a).1 = BitVec.ofNat 32 (v.toNat % 256) ∧
        ∀ x, x ≠ a → (s.hostWrite .w8 a v).byteAt x = s.byteAt x) ∧
    (0x100000 ≤ a ∧ a < 0x180000 ∧ a % 4 = 0 →
      ((s.hostWrite .w32 a v).hostRead .w32 a).1 = v ∧
        ∀ x, x < a ∨ a + 4 ≤ x → (s.hostWrite .w32 a v).byteAt x = s.byteAt x)

/-- A host read leaves the whole state as it was, but for the model's counter of drawn values. Busy or not: an aligned
32-bit or any narrower read of a reserved range returns 0 (for the narrower one the model's reading, log 9), as does a
32-bit read of CMD or a reserved register offset; STATUS, each CFG register at its offset, the bytes of the 8-bit
windows and the entries of the 32-bit windows read their current values. While no command runs, RESULT, FRAME_LEN,
ERR_INFO and every byte of FRAME_BUF do too. (R33, R34, R42, R43, R44, R59, R81, R87, R91) -/
def Obligations.HostReadsHaveNoSideEffect : Prop :=
  ∀ (s : State) (width : Width) (a : Nat),
    ((s.hostRead width a).2 = s ∨ (s.hostRead width a).2 = { s with draws := s.draws + 1 }) ∧
      ((width = .w32 → a % 4 = 0) →
        ((0x100 ≤ a ∧ a < 0x010000) ∨ (0x030000 ≤ a ∧ a < 0x100000) ∨ (0x180000 ≤ a ∧ a < 0x200000) ∨
          0x600000 + s.params.frameBufBytes ≤ a) → s.hostRead width a = (0#32, s)) ∧
      (a % 4 = 0 → (a = 0x00 ∨ (0x14 ≤ a ∧ a < 0x20) ∨ (0x40 ≤ a ∧ a < 0x100)) →
        s.hostRead .w32 a = (0#32, s)) ∧
      s.hostRead .w32 0x04 = (s.statusWord, s) ∧
      s.hostRead .w32 0x20 = (s.cfgVariant.setWidth 32, s) ∧
      s.hostRead .w32 0x24 = (s.cfgDataLen.setWidth 32, s) ∧
      s.hostRead .w32 0x28 = (s.cfgFrameCount.setWidth 32, s) ∧
      s.hostRead .w32 0x2C = (s.cfgPhraseLen.setWidth 32, s) ∧
      s.hostRead .w32 0x30 = (s.cfgColorsLen.setWidth 32, s) ∧
      s.hostRead .w32 0x34 = (s.cfgCharset.setWidth 32, s) ∧
      s.hostRead .w32 0x38 = (s.cfgCharlistLen.setWidth 32, s) ∧
      s.hostRead .w32 0x3C = (s.cfgTableLen.setWidth 32, s) ∧
      ((0x010000 ≤ a ∧ a < 0x030000) ∨ (0x200000 ≤ a ∧ a < 0x600000) →
        s.hostRead .w8 a = ((s.byteAt a).setWidth 32, s)) ∧
      (0x100000 ≤ a ∧ a < 0x180000 ∧ a % 4 = 0 → s.hostRead .w32 a = (s.wordAt a, s)) ∧
      (s.busy = false →
        s.hostRead .w32 0x08 = (s.result, s) ∧ s.hostRead .w32 0x0C = (s.frameLen.setWidth 32, s) ∧
          s.hostRead .w32 0x10 = (s.errInfo, s) ∧
          (0x600000 ≤ a ∧ a < 0x600000 + s.params.frameBufBytes →
            s.hostRead .w8 a = ((s.byteAt a).setWidth 32, s)))

/-- A read of RESULT or ERR_INFO while BUSY, a misaligned 32-bit read, and a read of any window, FRAME_BUF included, with
a width that is not its entry size, return the next value of the free sequence (nothing is known of it) and advance
the counter; a read of FRAME_LEN or of a FRAME_BUF byte while BUSY returns the low 9 or 8 bits of it. The model's
readings: that these two keep only those bits (log 8), and that a misaligned 32-bit read of a reserved address counts
as misaligned and draws a value where R81 alone would say 0 (log 9). (R34, R85, R91) -/
def Obligations.UnspecifiedReadsAreFreshDraws : Prop :=
  ∀ (s : State) (width : Width) (a : Nat),
    (((s.busy = true ∧ width = .w32 ∧ (a = 0x08 ∨ a = 0x10)) ∨ (width = .w32 ∧ a % 4 ≠ 0) ∨
      (width ≠ .w32 ∧ (a < 0x100 ∨ (0x100000 ≤ a ∧ a < 0x180000))) ∨
      (width ≠ .w8 ∧ ((0x010000 ≤ a ∧ a < 0x030000) ∨
        (0x200000 ≤ a ∧ a < 0x600000 + s.params.frameBufBytes)))) →
      s.hostRead width a = (Config.anyWord s.draws, { s with draws := s.draws + 1 })) ∧
    (s.busy = true →
      s.hostRead .w32 0x0C =
        (((Config.anyWord s.draws).setWidth 9).setWidth 32, { s with draws := s.draws + 1 })) ∧
    (s.busy = true → 0x600000 ≤ a ∧ a < 0x600000 + s.params.frameBufBytes →
      s.hostRead .w8 a = (((Config.anyWord s.draws).setWidth 8).setWidth 32, { s with draws := s.draws + 1 }))

/-- For every state and bit position, the STATUS word's bit is the flag the spec gives it: BUSY 0, DONE 1, ERR 2,
FAULT_SEEN 3, OVERRUN 4, ERRCODE 11:8; bits 31:12 and 7:5 are 0. (R36, R37, R38, R39, R40, R41) -/
def Obligations.StatusWordHasTheStatedLayout : Prop :=
  ∀ (s : State) (k : Nat), s.statusWord.getLsbD k =
    (if k = 0 then s.busy
    else if k = 1 then s.status.done
    else if k = 2 then s.status.err
    else if k = 3 then s.status.faultSeen
    else if k = 4 then s.status.overrun
    else if 8 ≤ k ∧ k ≤ 11 then s.status.errcode.getLsbD (k - 8)
    else false)
end

