-- ==== Sys2Proof/Laws/Memory.lean ====
section
/-! SUPPORT. What the memory operations do: a read after a write, the other addresses, and the canonical form that every
operation keeps. -/

namespace Sys2Proof.Machine

@[simp] theorem Memory.read_nil (a : Nat) : Memory.read [] a = none := rfl

theorem Memory.read_cons (k : Nat) (c : Byte) (m : Memory) (a : Nat) :
    Memory.read ((k, c) :: m) a = if a = k then some c else m.read a := rfl

/-- A read after a write of one byte, at any address. -/
@[simp] theorem Memory.read_write (m : Memory) (a x : Nat) (b : Byte) :
    (m.write a b).read x = if x = a then some b else m.read x := by
  induction m with
  | nil => rfl
  | cons hd rest ih =>
    obtain ⟨k, c⟩ := hd
    by_cases h1 : a < k
    · simp [Memory.write, h1, Memory.read_cons]
    · by_cases h2 : a = k
      · subst h2
        by_cases hx : x = a <;> simp [Memory.write, Memory.read_cons, hx]
      · simp only [Memory.write, h1, h2, if_false, Memory.read_cons, ih]
        by_cases hx : x = k
        · simp [hx, Ne.symm h2]
        · simp [hx]

/-- A read after a write of consecutive bytes: the byte at its offset inside the range, the old content outside. -/
theorem Memory.read_writeBytes (m : Memory) (a x : Nat) (bs : List Byte) :
    (m.writeBytes a bs).read x =
      if a ≤ x ∧ x < a + bs.length then some (bs.getD (x - a) 0#8) else m.read x := by
  induction bs generalizing m a with
  | nil => simp [Memory.writeBytes]
  | cons b rest ih =>
    simp only [Memory.writeBytes, ih, Memory.read_write, List.length_cons]
    by_cases hx : x = a
    · subst hx; simp
    · by_cases hr : a + 1 ≤ x ∧ x < a + 1 + rest.length
      · obtain ⟨n, rfl⟩ : ∃ n, x = a + 1 + n := ⟨x - (a + 1), by omega⟩
        have hge : a ≤ a + 1 + n ∧ a + 1 + n < a + (rest.length + 1) := by omega
        have hsub : a + 1 + n - a = n + 1 := by omega
        simp [hr, hge, hsub]
      · rw [if_neg hr, if_neg hx, if_neg (by omega)]

/-- A read after keeping some addresses. -/
@[simp] theorem Memory.read_keep (m : Memory) (p : Nat → Bool) (x : Nat) :
    (m.keep p).read x = if p x then m.read x else none := by
  induction m with
  | nil => simp [Memory.keep]
  | cons hd rest ih =>
    obtain ⟨k, c⟩ := hd
    unfold Memory.keep at ih ⊢
    by_cases hk : p k <;> by_cases hx : x = k
    · subst hx; simp [hk, Memory.read_cons]
    · simp only [List.filter_cons, hk, if_true, Memory.read_cons, hx, if_false, ih]
    · subst hx; simpa [hk] using ih
    · simpa [hk, Memory.read_cons, hx] using ih

theorem Memory.mem_write {m : Memory} {a : Nat} {b : Byte} {c : Host.Cell} (h : c ∈ m.write a b) :
    c = (a, b) ∨ c ∈ m := by
  induction m with
  | nil => simpa [Memory.write] using h
  | cons hd rest ih =>
    simp only [Memory.write] at h
    split at h
    · simpa using h
    · split at h <;> simp only [List.mem_cons] at h ⊢ <;> tauto

/-- A write keeps the canonical form. -/
theorem Memory.wf_write {m : Memory} (h : m.wf) (a : Nat) (b : Byte) : (m.write a b).wf := by
  induction m with
  | nil => simp [Memory.wf, Memory.write]
  | cons hd rest ih =>
    obtain ⟨hhd, hrest⟩ := List.pairwise_cons.mp h
    simp only [Memory.write]
    split
    · refine List.pairwise_cons.mpr ⟨fun c hc => ?_, h⟩
      rcases List.mem_cons.mp hc with rfl | hc
      · assumption
      · exact lt_trans ‹_› (hhd c hc)
    · split
      · subst_vars
        exact List.pairwise_cons.mpr ⟨hhd, hrest⟩
      · refine List.pairwise_cons.mpr ⟨fun c hc => ?_, ih hrest⟩
        rcases Memory.mem_write hc with rfl | hc
        · show _ < a
          omega
        · exact hhd c hc

/-- A write of consecutive bytes keeps the canonical form. -/
theorem Memory.wf_writeBytes {m : Memory} (h : m.wf) (a : Nat) (bs : List Byte) : (m.writeBytes a bs).wf := by
  induction bs generalizing m a with
  | nil => exact h
  | cons b rest ih => exact ih (Memory.wf_write h a b) (a + 1)

/-- Keeping some addresses keeps the canonical form. -/
theorem Memory.wf_keep {m : Memory} (h : m.wf) (p : Nat → Bool) : (m.keep p).wf :=
  List.Pairwise.filter _ h

end Sys2Proof.Machine
end

