-- ==== Sys2Proof/Laws/State.lean ====
section
/-! SUPPORT. One lemma per field per update of State and Status, true by rfl, so that no later proof unfolds a record
update. -/

namespace Sys2Proof.Machine

section
variable (s : State)

/-! succeed -/

@[simp] theorem State.succeed_inflight (value : Nat) :
    (s.succeed value).inflight = none := rfl
@[simp] theorem State.succeed_status (value : Nat) :
    (s.succeed value).status = s.status.succeeded := rfl
@[simp] theorem State.succeed_result (value : Nat) :
    (s.succeed value).result = BitVec.ofNat 32 value := rfl
@[simp] theorem State.succeed_frameLen (value : Nat) :
    (s.succeed value).frameLen = s.frameLen := rfl
@[simp] theorem State.succeed_errInfo (value : Nat) :
    (s.succeed value).errInfo = 0#32 := rfl
@[simp] theorem State.succeed_cfgVariant (value : Nat) :
    (s.succeed value).cfgVariant = s.cfgVariant := rfl
@[simp] theorem State.succeed_cfgDataLen (value : Nat) :
    (s.succeed value).cfgDataLen = s.cfgDataLen := rfl
@[simp] theorem State.succeed_cfgFrameCount (value : Nat) :
    (s.succeed value).cfgFrameCount = s.cfgFrameCount := rfl
@[simp] theorem State.succeed_cfgPhraseLen (value : Nat) :
    (s.succeed value).cfgPhraseLen = s.cfgPhraseLen := rfl
@[simp] theorem State.succeed_cfgColorsLen (value : Nat) :
    (s.succeed value).cfgColorsLen = s.cfgColorsLen := rfl
@[simp] theorem State.succeed_cfgCharset (value : Nat) :
    (s.succeed value).cfgCharset = s.cfgCharset := rfl
@[simp] theorem State.succeed_cfgCharlistLen (value : Nat) :
    (s.succeed value).cfgCharlistLen = s.cfgCharlistLen := rfl
@[simp] theorem State.succeed_cfgTableLen (value : Nat) :
    (s.succeed value).cfgTableLen = s.cfgTableLen := rfl
@[simp] theorem State.succeed_mem (value : Nat) :
    (s.succeed value).mem = s.mem := rfl
@[simp] theorem State.succeed_params (value : Nat) :
    (s.succeed value).params = s.params := rfl
@[simp] theorem State.succeed_pending (value : Nat) :
    (s.succeed value).pending = s.pending := rfl
@[simp] theorem State.succeed_readLog (value : Nat) :
    (s.succeed value).readLog = s.readLog := rfl
@[simp] theorem State.succeed_latencies (value : Nat) :
    (s.succeed value).latencies = s.latencies := rfl
@[simp] theorem State.succeed_memDraw (value : Nat) :
    (s.succeed value).memDraw = s.memDraw := rfl
@[simp] theorem State.succeed_frameDraw (value : Nat) :
    (s.succeed value).frameDraw = s.frameDraw := rfl
@[simp] theorem State.succeed_draws (value : Nat) :
    (s.succeed value).draws = s.draws := rfl

/-! raise_query -/

@[simp] theorem State.raise_query_inflight (r : Raise) :
    (s.raise false r).inflight = none := rfl
@[simp] theorem State.raise_query_status (r : Raise) :
    (s.raise false r).status = s.status.failed r.error := rfl
@[simp] theorem State.raise_query_result (r : Raise) :
    (s.raise false r).result = 0#32 := rfl
@[simp] theorem State.raise_query_frameLen (r : Raise) :
    (s.raise false r).frameLen = s.frameLen := rfl
@[simp] theorem State.raise_query_errInfo (r : Raise) :
    (s.raise false r).errInfo = BitVec.ofNat 32 r.info := rfl
@[simp] theorem State.raise_query_cfgVariant (r : Raise) :
    (s.raise false r).cfgVariant = s.cfgVariant := rfl
@[simp] theorem State.raise_query_cfgDataLen (r : Raise) :
    (s.raise false r).cfgDataLen = s.cfgDataLen := rfl
@[simp] theorem State.raise_query_cfgFrameCount (r : Raise) :
    (s.raise false r).cfgFrameCount = s.cfgFrameCount := rfl
@[simp] theorem State.raise_query_cfgPhraseLen (r : Raise) :
    (s.raise false r).cfgPhraseLen = s.cfgPhraseLen := rfl
@[simp] theorem State.raise_query_cfgColorsLen (r : Raise) :
    (s.raise false r).cfgColorsLen = s.cfgColorsLen := rfl
@[simp] theorem State.raise_query_cfgCharset (r : Raise) :
    (s.raise false r).cfgCharset = s.cfgCharset := rfl
@[simp] theorem State.raise_query_cfgCharlistLen (r : Raise) :
    (s.raise false r).cfgCharlistLen = s.cfgCharlistLen := rfl
@[simp] theorem State.raise_query_cfgTableLen (r : Raise) :
    (s.raise false r).cfgTableLen = s.cfgTableLen := rfl
@[simp] theorem State.raise_query_mem (r : Raise) :
    (s.raise false r).mem = s.mem := rfl
@[simp] theorem State.raise_query_params (r : Raise) :
    (s.raise false r).params = s.params := rfl
@[simp] theorem State.raise_query_pending (r : Raise) :
    (s.raise false r).pending = s.pending := rfl
@[simp] theorem State.raise_query_readLog (r : Raise) :
    (s.raise false r).readLog = s.readLog := rfl
@[simp] theorem State.raise_query_latencies (r : Raise) :
    (s.raise false r).latencies = s.latencies := rfl
@[simp] theorem State.raise_query_memDraw (r : Raise) :
    (s.raise false r).memDraw = s.memDraw := rfl
@[simp] theorem State.raise_query_frameDraw (r : Raise) :
    (s.raise false r).frameDraw = s.frameDraw := rfl
@[simp] theorem State.raise_query_draws (r : Raise) :
    (s.raise false r).draws = s.draws := rfl

/-! raise_gen -/

@[simp] theorem State.raise_gen_inflight (r : Raise) :
    (s.raise true r).inflight = none := rfl
@[simp] theorem State.raise_gen_status (r : Raise) :
    (s.raise true r).status = s.status.failed r.error := rfl
@[simp] theorem State.raise_gen_result (r : Raise) :
    (s.raise true r).result = 0#32 := rfl
@[simp] theorem State.raise_gen_frameLen (r : Raise) :
    (s.raise true r).frameLen = 0#9 := rfl
@[simp] theorem State.raise_gen_errInfo (r : Raise) :
    (s.raise true r).errInfo = BitVec.ofNat 32 r.info := rfl
@[simp] theorem State.raise_gen_cfgVariant (r : Raise) :
    (s.raise true r).cfgVariant = s.cfgVariant := rfl
@[simp] theorem State.raise_gen_cfgDataLen (r : Raise) :
    (s.raise true r).cfgDataLen = s.cfgDataLen := rfl
@[simp] theorem State.raise_gen_cfgFrameCount (r : Raise) :
    (s.raise true r).cfgFrameCount = s.cfgFrameCount := rfl
@[simp] theorem State.raise_gen_cfgPhraseLen (r : Raise) :
    (s.raise true r).cfgPhraseLen = s.cfgPhraseLen := rfl
@[simp] theorem State.raise_gen_cfgColorsLen (r : Raise) :
    (s.raise true r).cfgColorsLen = s.cfgColorsLen := rfl
@[simp] theorem State.raise_gen_cfgCharset (r : Raise) :
    (s.raise true r).cfgCharset = s.cfgCharset := rfl
@[simp] theorem State.raise_gen_cfgCharlistLen (r : Raise) :
    (s.raise true r).cfgCharlistLen = s.cfgCharlistLen := rfl
@[simp] theorem State.raise_gen_cfgTableLen (r : Raise) :
    (s.raise true r).cfgTableLen = s.cfgTableLen := rfl
@[simp] theorem State.raise_gen_mem (r : Raise) :
    (s.raise true r).mem = s.mem.keep belowFrame := rfl
@[simp] theorem State.raise_gen_params (r : Raise) :
    (s.raise true r).params = s.params := rfl
@[simp] theorem State.raise_gen_pending (r : Raise) :
    (s.raise true r).pending = s.pending := rfl
@[simp] theorem State.raise_gen_readLog (r : Raise) :
    (s.raise true r).readLog = s.readLog := rfl
@[simp] theorem State.raise_gen_latencies (r : Raise) :
    (s.raise true r).latencies = s.latencies := rfl
@[simp] theorem State.raise_gen_memDraw (r : Raise) :
    (s.raise true r).memDraw = s.memDraw := rfl
@[simp] theorem State.raise_gen_frameDraw (r : Raise) :
    (s.raise true r).frameDraw = s.frameDraw + 1 := rfl
@[simp] theorem State.raise_gen_draws (r : Raise) :
    (s.raise true r).draws = s.draws := rfl

/-! forgetFrame -/

@[simp] theorem State.forgetFrame_inflight :
    (s.forgetFrame).inflight = s.inflight := rfl
@[simp] theorem State.forgetFrame_status :
    (s.forgetFrame).status = s.status := rfl
@[simp] theorem State.forgetFrame_result :
    (s.forgetFrame).result = s.result := rfl
@[simp] theorem State.forgetFrame_frameLen :
    (s.forgetFrame).frameLen = s.frameLen := rfl
@[simp] theorem State.forgetFrame_errInfo :
    (s.forgetFrame).errInfo = s.errInfo := rfl
@[simp] theorem State.forgetFrame_cfgVariant :
    (s.forgetFrame).cfgVariant = s.cfgVariant := rfl
@[simp] theorem State.forgetFrame_cfgDataLen :
    (s.forgetFrame).cfgDataLen = s.cfgDataLen := rfl
@[simp] theorem State.forgetFrame_cfgFrameCount :
    (s.forgetFrame).cfgFrameCount = s.cfgFrameCount := rfl
@[simp] theorem State.forgetFrame_cfgPhraseLen :
    (s.forgetFrame).cfgPhraseLen = s.cfgPhraseLen := rfl
@[simp] theorem State.forgetFrame_cfgColorsLen :
    (s.forgetFrame).cfgColorsLen = s.cfgColorsLen := rfl
@[simp] theorem State.forgetFrame_cfgCharset :
    (s.forgetFrame).cfgCharset = s.cfgCharset := rfl
@[simp] theorem State.forgetFrame_cfgCharlistLen :
    (s.forgetFrame).cfgCharlistLen = s.cfgCharlistLen := rfl
@[simp] theorem State.forgetFrame_cfgTableLen :
    (s.forgetFrame).cfgTableLen = s.cfgTableLen := rfl
@[simp] theorem State.forgetFrame_mem :
    (s.forgetFrame).mem = s.mem.keep belowFrame := rfl
@[simp] theorem State.forgetFrame_params :
    (s.forgetFrame).params = s.params := rfl
@[simp] theorem State.forgetFrame_pending :
    (s.forgetFrame).pending = s.pending := rfl
@[simp] theorem State.forgetFrame_readLog :
    (s.forgetFrame).readLog = s.readLog := rfl
@[simp] theorem State.forgetFrame_latencies :
    (s.forgetFrame).latencies = s.latencies := rfl
@[simp] theorem State.forgetFrame_memDraw :
    (s.forgetFrame).memDraw = s.memDraw := rfl
@[simp] theorem State.forgetFrame_frameDraw :
    (s.forgetFrame).frameDraw = s.frameDraw + 1 := rfl
@[simp] theorem State.forgetFrame_draws :
    (s.forgetFrame).draws = s.draws := rfl

/-! storeFrame -/

@[simp] theorem State.storeFrame_inflight (frame : List Byte) :
    (s.storeFrame frame).inflight = s.inflight := rfl
@[simp] theorem State.storeFrame_status (frame : List Byte) :
    (s.storeFrame frame).status = s.status := rfl
@[simp] theorem State.storeFrame_result (frame : List Byte) :
    (s.storeFrame frame).result = s.result := rfl
@[simp] theorem State.storeFrame_frameLen (frame : List Byte) :
    (s.storeFrame frame).frameLen = BitVec.ofNat 9 frame.length := rfl
@[simp] theorem State.storeFrame_errInfo (frame : List Byte) :
    (s.storeFrame frame).errInfo = s.errInfo := rfl
@[simp] theorem State.storeFrame_cfgVariant (frame : List Byte) :
    (s.storeFrame frame).cfgVariant = s.cfgVariant := rfl
@[simp] theorem State.storeFrame_cfgDataLen (frame : List Byte) :
    (s.storeFrame frame).cfgDataLen = s.cfgDataLen := rfl
@[simp] theorem State.storeFrame_cfgFrameCount (frame : List Byte) :
    (s.storeFrame frame).cfgFrameCount = s.cfgFrameCount := rfl
@[simp] theorem State.storeFrame_cfgPhraseLen (frame : List Byte) :
    (s.storeFrame frame).cfgPhraseLen = s.cfgPhraseLen := rfl
@[simp] theorem State.storeFrame_cfgColorsLen (frame : List Byte) :
    (s.storeFrame frame).cfgColorsLen = s.cfgColorsLen := rfl
@[simp] theorem State.storeFrame_cfgCharset (frame : List Byte) :
    (s.storeFrame frame).cfgCharset = s.cfgCharset := rfl
@[simp] theorem State.storeFrame_cfgCharlistLen (frame : List Byte) :
    (s.storeFrame frame).cfgCharlistLen = s.cfgCharlistLen := rfl
@[simp] theorem State.storeFrame_cfgTableLen (frame : List Byte) :
    (s.storeFrame frame).cfgTableLen = s.cfgTableLen := rfl
@[simp] theorem State.storeFrame_mem (frame : List Byte) :
    (s.storeFrame frame).mem = (s.mem.keep belowFrame).writeBytes frameBase frame := rfl
@[simp] theorem State.storeFrame_params (frame : List Byte) :
    (s.storeFrame frame).params = s.params := rfl
@[simp] theorem State.storeFrame_pending (frame : List Byte) :
    (s.storeFrame frame).pending = s.pending := rfl
@[simp] theorem State.storeFrame_readLog (frame : List Byte) :
    (s.storeFrame frame).readLog = s.readLog := rfl
@[simp] theorem State.storeFrame_latencies (frame : List Byte) :
    (s.storeFrame frame).latencies = s.latencies := rfl
@[simp] theorem State.storeFrame_memDraw (frame : List Byte) :
    (s.storeFrame frame).memDraw = s.memDraw := rfl
@[simp] theorem State.storeFrame_frameDraw (frame : List Byte) :
    (s.storeFrame frame).frameDraw = s.frameDraw + 1 := rfl
@[simp] theorem State.storeFrame_draws (frame : List Byte) :
    (s.storeFrame frame).draws = s.draws := rfl

/-! dropWrite -/

@[simp] theorem State.dropWrite_inflight :
    (s.dropWrite).inflight = s.inflight := rfl
@[simp] theorem State.dropWrite_status :
    (s.dropWrite).status = s.status.overran := rfl
@[simp] theorem State.dropWrite_result :
    (s.dropWrite).result = s.result := rfl
@[simp] theorem State.dropWrite_frameLen :
    (s.dropWrite).frameLen = s.frameLen := rfl
@[simp] theorem State.dropWrite_errInfo :
    (s.dropWrite).errInfo = s.errInfo := rfl
@[simp] theorem State.dropWrite_cfgVariant :
    (s.dropWrite).cfgVariant = s.cfgVariant := rfl
@[simp] theorem State.dropWrite_cfgDataLen :
    (s.dropWrite).cfgDataLen = s.cfgDataLen := rfl
@[simp] theorem State.dropWrite_cfgFrameCount :
    (s.dropWrite).cfgFrameCount = s.cfgFrameCount := rfl
@[simp] theorem State.dropWrite_cfgPhraseLen :
    (s.dropWrite).cfgPhraseLen = s.cfgPhraseLen := rfl
@[simp] theorem State.dropWrite_cfgColorsLen :
    (s.dropWrite).cfgColorsLen = s.cfgColorsLen := rfl
@[simp] theorem State.dropWrite_cfgCharset :
    (s.dropWrite).cfgCharset = s.cfgCharset := rfl
@[simp] theorem State.dropWrite_cfgCharlistLen :
    (s.dropWrite).cfgCharlistLen = s.cfgCharlistLen := rfl
@[simp] theorem State.dropWrite_cfgTableLen :
    (s.dropWrite).cfgTableLen = s.cfgTableLen := rfl
@[simp] theorem State.dropWrite_mem :
    (s.dropWrite).mem = s.mem := rfl
@[simp] theorem State.dropWrite_params :
    (s.dropWrite).params = s.params := rfl
@[simp] theorem State.dropWrite_pending :
    (s.dropWrite).pending = s.pending := rfl
@[simp] theorem State.dropWrite_readLog :
    (s.dropWrite).readLog = s.readLog := rfl
@[simp] theorem State.dropWrite_latencies :
    (s.dropWrite).latencies = s.latencies := rfl
@[simp] theorem State.dropWrite_memDraw :
    (s.dropWrite).memDraw = s.memDraw := rfl
@[simp] theorem State.dropWrite_frameDraw :
    (s.dropWrite).frameDraw = s.frameDraw := rfl
@[simp] theorem State.dropWrite_draws :
    (s.dropWrite).draws = s.draws := rfl

/-! draw -/

@[simp] theorem State.draw_inflight :
    (s.draw.2).inflight = s.inflight := rfl
@[simp] theorem State.draw_status :
    (s.draw.2).status = s.status := rfl
@[simp] theorem State.draw_result :
    (s.draw.2).result = s.result := rfl
@[simp] theorem State.draw_frameLen :
    (s.draw.2).frameLen = s.frameLen := rfl
@[simp] theorem State.draw_errInfo :
    (s.draw.2).errInfo = s.errInfo := rfl
@[simp] theorem State.draw_cfgVariant :
    (s.draw.2).cfgVariant = s.cfgVariant := rfl
@[simp] theorem State.draw_cfgDataLen :
    (s.draw.2).cfgDataLen = s.cfgDataLen := rfl
@[simp] theorem State.draw_cfgFrameCount :
    (s.draw.2).cfgFrameCount = s.cfgFrameCount := rfl
@[simp] theorem State.draw_cfgPhraseLen :
    (s.draw.2).cfgPhraseLen = s.cfgPhraseLen := rfl
@[simp] theorem State.draw_cfgColorsLen :
    (s.draw.2).cfgColorsLen = s.cfgColorsLen := rfl
@[simp] theorem State.draw_cfgCharset :
    (s.draw.2).cfgCharset = s.cfgCharset := rfl
@[simp] theorem State.draw_cfgCharlistLen :
    (s.draw.2).cfgCharlistLen = s.cfgCharlistLen := rfl
@[simp] theorem State.draw_cfgTableLen :
    (s.draw.2).cfgTableLen = s.cfgTableLen := rfl
@[simp] theorem State.draw_mem :
    (s.draw.2).mem = s.mem := rfl
@[simp] theorem State.draw_params :
    (s.draw.2).params = s.params := rfl
@[simp] theorem State.draw_pending :
    (s.draw.2).pending = s.pending := rfl
@[simp] theorem State.draw_readLog :
    (s.draw.2).readLog = s.readLog := rfl
@[simp] theorem State.draw_latencies :
    (s.draw.2).latencies = s.latencies := rfl
@[simp] theorem State.draw_memDraw :
    (s.draw.2).memDraw = s.memDraw := rfl
@[simp] theorem State.draw_frameDraw :
    (s.draw.2).frameDraw = s.frameDraw := rfl
@[simp] theorem State.draw_draws :
    (s.draw.2).draws = s.draws + 1 := rfl

/-! putByte -/

@[simp] theorem State.putByte_inflight (a : Nat) (b : Byte) :
    (s.putByte a b).inflight = s.inflight := rfl
@[simp] theorem State.putByte_status (a : Nat) (b : Byte) :
    (s.putByte a b).status = s.status := rfl
@[simp] theorem State.putByte_result (a : Nat) (b : Byte) :
    (s.putByte a b).result = s.result := rfl
@[simp] theorem State.putByte_frameLen (a : Nat) (b : Byte) :
    (s.putByte a b).frameLen = s.frameLen := rfl
@[simp] theorem State.putByte_errInfo (a : Nat) (b : Byte) :
    (s.putByte a b).errInfo = s.errInfo := rfl
@[simp] theorem State.putByte_cfgVariant (a : Nat) (b : Byte) :
    (s.putByte a b).cfgVariant = s.cfgVariant := rfl
@[simp] theorem State.putByte_cfgDataLen (a : Nat) (b : Byte) :
    (s.putByte a b).cfgDataLen = s.cfgDataLen := rfl
@[simp] theorem State.putByte_cfgFrameCount (a : Nat) (b : Byte) :
    (s.putByte a b).cfgFrameCount = s.cfgFrameCount := rfl
@[simp] theorem State.putByte_cfgPhraseLen (a : Nat) (b : Byte) :
    (s.putByte a b).cfgPhraseLen = s.cfgPhraseLen := rfl
@[simp] theorem State.putByte_cfgColorsLen (a : Nat) (b : Byte) :
    (s.putByte a b).cfgColorsLen = s.cfgColorsLen := rfl
@[simp] theorem State.putByte_cfgCharset (a : Nat) (b : Byte) :
    (s.putByte a b).cfgCharset = s.cfgCharset := rfl
@[simp] theorem State.putByte_cfgCharlistLen (a : Nat) (b : Byte) :
    (s.putByte a b).cfgCharlistLen = s.cfgCharlistLen := rfl
@[simp] theorem State.putByte_cfgTableLen (a : Nat) (b : Byte) :
    (s.putByte a b).cfgTableLen = s.cfgTableLen := rfl
@[simp] theorem State.putByte_mem (a : Nat) (b : Byte) :
    (s.putByte a b).mem = s.mem.write a b := rfl
@[simp] theorem State.putByte_params (a : Nat) (b : Byte) :
    (s.putByte a b).params = s.params := rfl
@[simp] theorem State.putByte_pending (a : Nat) (b : Byte) :
    (s.putByte a b).pending = s.pending := rfl
@[simp] theorem State.putByte_readLog (a : Nat) (b : Byte) :
    (s.putByte a b).readLog = s.readLog := rfl
@[simp] theorem State.putByte_latencies (a : Nat) (b : Byte) :
    (s.putByte a b).latencies = s.latencies := rfl
@[simp] theorem State.putByte_memDraw (a : Nat) (b : Byte) :
    (s.putByte a b).memDraw = s.memDraw := rfl
@[simp] theorem State.putByte_frameDraw (a : Nat) (b : Byte) :
    (s.putByte a b).frameDraw = s.frameDraw := rfl
@[simp] theorem State.putByte_draws (a : Nat) (b : Byte) :
    (s.putByte a b).draws = s.draws := rfl

/-! putWord -/

@[simp] theorem State.putWord_inflight (a : Nat) (v : Word) :
    (s.putWord a v).inflight = s.inflight := rfl
@[simp] theorem State.putWord_status (a : Nat) (v : Word) :
    (s.putWord a v).status = s.status := rfl
@[simp] theorem State.putWord_result (a : Nat) (v : Word) :
    (s.putWord a v).result = s.result := rfl
@[simp] theorem State.putWord_frameLen (a : Nat) (v : Word) :
    (s.putWord a v).frameLen = s.frameLen := rfl
@[simp] theorem State.putWord_errInfo (a : Nat) (v : Word) :
    (s.putWord a v).errInfo = s.errInfo := rfl
@[simp] theorem State.putWord_cfgVariant (a : Nat) (v : Word) :
    (s.putWord a v).cfgVariant = s.cfgVariant := rfl
@[simp] theorem State.putWord_cfgDataLen (a : Nat) (v : Word) :
    (s.putWord a v).cfgDataLen = s.cfgDataLen := rfl
@[simp] theorem State.putWord_cfgFrameCount (a : Nat) (v : Word) :
    (s.putWord a v).cfgFrameCount = s.cfgFrameCount := rfl
@[simp] theorem State.putWord_cfgPhraseLen (a : Nat) (v : Word) :
    (s.putWord a v).cfgPhraseLen = s.cfgPhraseLen := rfl
@[simp] theorem State.putWord_cfgColorsLen (a : Nat) (v : Word) :
    (s.putWord a v).cfgColorsLen = s.cfgColorsLen := rfl
@[simp] theorem State.putWord_cfgCharset (a : Nat) (v : Word) :
    (s.putWord a v).cfgCharset = s.cfgCharset := rfl
@[simp] theorem State.putWord_cfgCharlistLen (a : Nat) (v : Word) :
    (s.putWord a v).cfgCharlistLen = s.cfgCharlistLen := rfl
@[simp] theorem State.putWord_cfgTableLen (a : Nat) (v : Word) :
    (s.putWord a v).cfgTableLen = s.cfgTableLen := rfl
@[simp] theorem State.putWord_mem (a : Nat) (v : Word) :
    (s.putWord a v).mem = s.mem.writeBytes a (wordBytes v) := rfl
@[simp] theorem State.putWord_params (a : Nat) (v : Word) :
    (s.putWord a v).params = s.params := rfl
@[simp] theorem State.putWord_pending (a : Nat) (v : Word) :
    (s.putWord a v).pending = s.pending := rfl
@[simp] theorem State.putWord_readLog (a : Nat) (v : Word) :
    (s.putWord a v).readLog = s.readLog := rfl
@[simp] theorem State.putWord_latencies (a : Nat) (v : Word) :
    (s.putWord a v).latencies = s.latencies := rfl
@[simp] theorem State.putWord_memDraw (a : Nat) (v : Word) :
    (s.putWord a v).memDraw = s.memDraw := rfl
@[simp] theorem State.putWord_frameDraw (a : Nat) (v : Word) :
    (s.putWord a v).frameDraw = s.frameDraw := rfl
@[simp] theorem State.putWord_draws (a : Nat) (v : Word) :
    (s.putWord a v).draws = s.draws := rfl

/-! logRead -/

@[simp] theorem State.logRead_inflight (v : Word) :
    (s.logRead v).inflight = s.inflight := rfl
@[simp] theorem State.logRead_status (v : Word) :
    (s.logRead v).status = s.status := rfl
@[simp] theorem State.logRead_result (v : Word) :
    (s.logRead v).result = s.result := rfl
@[simp] theorem State.logRead_frameLen (v : Word) :
    (s.logRead v).frameLen = s.frameLen := rfl
@[simp] theorem State.logRead_errInfo (v : Word) :
    (s.logRead v).errInfo = s.errInfo := rfl
@[simp] theorem State.logRead_cfgVariant (v : Word) :
    (s.logRead v).cfgVariant = s.cfgVariant := rfl
@[simp] theorem State.logRead_cfgDataLen (v : Word) :
    (s.logRead v).cfgDataLen = s.cfgDataLen := rfl
@[simp] theorem State.logRead_cfgFrameCount (v : Word) :
    (s.logRead v).cfgFrameCount = s.cfgFrameCount := rfl
@[simp] theorem State.logRead_cfgPhraseLen (v : Word) :
    (s.logRead v).cfgPhraseLen = s.cfgPhraseLen := rfl
@[simp] theorem State.logRead_cfgColorsLen (v : Word) :
    (s.logRead v).cfgColorsLen = s.cfgColorsLen := rfl
@[simp] theorem State.logRead_cfgCharset (v : Word) :
    (s.logRead v).cfgCharset = s.cfgCharset := rfl
@[simp] theorem State.logRead_cfgCharlistLen (v : Word) :
    (s.logRead v).cfgCharlistLen = s.cfgCharlistLen := rfl
@[simp] theorem State.logRead_cfgTableLen (v : Word) :
    (s.logRead v).cfgTableLen = s.cfgTableLen := rfl
@[simp] theorem State.logRead_mem (v : Word) :
    (s.logRead v).mem = s.mem := rfl
@[simp] theorem State.logRead_params (v : Word) :
    (s.logRead v).params = s.params := rfl
@[simp] theorem State.logRead_pending (v : Word) :
    (s.logRead v).pending = s.pending := rfl
@[simp] theorem State.logRead_readLog (v : Word) :
    (s.logRead v).readLog = v :: s.readLog := rfl
@[simp] theorem State.logRead_latencies (v : Word) :
    (s.logRead v).latencies = s.latencies := rfl
@[simp] theorem State.logRead_memDraw (v : Word) :
    (s.logRead v).memDraw = s.memDraw := rfl
@[simp] theorem State.logRead_frameDraw (v : Word) :
    (s.logRead v).frameDraw = s.frameDraw := rfl
@[simp] theorem State.logRead_draws (v : Word) :
    (s.logRead v).draws = s.draws := rfl

/-! placeWord -/

@[simp] theorem State.placeWord_inflight (w : Word) :
    (s.placeWord w).inflight = some { word := w, remaining := 0 } := rfl
@[simp] theorem State.placeWord_status (w : Word) :
    (s.placeWord w).status = s.status := rfl
@[simp] theorem State.placeWord_result (w : Word) :
    (s.placeWord w).result = s.result := rfl
@[simp] theorem State.placeWord_frameLen (w : Word) :
    (s.placeWord w).frameLen = s.frameLen := rfl
@[simp] theorem State.placeWord_errInfo (w : Word) :
    (s.placeWord w).errInfo = s.errInfo := rfl
@[simp] theorem State.placeWord_cfgVariant (w : Word) :
    (s.placeWord w).cfgVariant = s.cfgVariant := rfl
@[simp] theorem State.placeWord_cfgDataLen (w : Word) :
    (s.placeWord w).cfgDataLen = s.cfgDataLen := rfl
@[simp] theorem State.placeWord_cfgFrameCount (w : Word) :
    (s.placeWord w).cfgFrameCount = s.cfgFrameCount := rfl
@[simp] theorem State.placeWord_cfgPhraseLen (w : Word) :
    (s.placeWord w).cfgPhraseLen = s.cfgPhraseLen := rfl
@[simp] theorem State.placeWord_cfgColorsLen (w : Word) :
    (s.placeWord w).cfgColorsLen = s.cfgColorsLen := rfl
@[simp] theorem State.placeWord_cfgCharset (w : Word) :
    (s.placeWord w).cfgCharset = s.cfgCharset := rfl
@[simp] theorem State.placeWord_cfgCharlistLen (w : Word) :
    (s.placeWord w).cfgCharlistLen = s.cfgCharlistLen := rfl
@[simp] theorem State.placeWord_cfgTableLen (w : Word) :
    (s.placeWord w).cfgTableLen = s.cfgTableLen := rfl
@[simp] theorem State.placeWord_mem (w : Word) :
    (s.placeWord w).mem = s.mem := rfl
@[simp] theorem State.placeWord_params (w : Word) :
    (s.placeWord w).params = s.params := rfl
@[simp] theorem State.placeWord_pending (w : Word) :
    (s.placeWord w).pending = s.pending := rfl
@[simp] theorem State.placeWord_readLog (w : Word) :
    (s.placeWord w).readLog = s.readLog := rfl
@[simp] theorem State.placeWord_latencies (w : Word) :
    (s.placeWord w).latencies = s.latencies := rfl
@[simp] theorem State.placeWord_memDraw (w : Word) :
    (s.placeWord w).memDraw = s.memDraw := rfl
@[simp] theorem State.placeWord_frameDraw (w : Word) :
    (s.placeWord w).frameDraw = s.frameDraw := rfl
@[simp] theorem State.placeWord_draws (w : Word) :
    (s.placeWord w).draws = s.draws := rfl

/-! resetEvent -/

@[simp] theorem State.resetEvent_inflight :
    (s.resetEvent).inflight = none := rfl
@[simp] theorem State.resetEvent_status :
    (s.resetEvent).status = State.reset.status := rfl
@[simp] theorem State.resetEvent_result :
    (s.resetEvent).result = 0#32 := rfl
@[simp] theorem State.resetEvent_frameLen :
    (s.resetEvent).frameLen = 0#9 := rfl
@[simp] theorem State.resetEvent_errInfo :
    (s.resetEvent).errInfo = 0#32 := rfl
@[simp] theorem State.resetEvent_cfgVariant :
    (s.resetEvent).cfgVariant = 0#2 := rfl
@[simp] theorem State.resetEvent_cfgDataLen :
    (s.resetEvent).cfgDataLen = 0#16 := rfl
@[simp] theorem State.resetEvent_cfgFrameCount :
    (s.resetEvent).cfgFrameCount = 0#8 := rfl
@[simp] theorem State.resetEvent_cfgPhraseLen :
    (s.resetEvent).cfgPhraseLen = 0#16 := rfl
@[simp] theorem State.resetEvent_cfgColorsLen :
    (s.resetEvent).cfgColorsLen = 0#16 := rfl
@[simp] theorem State.resetEvent_cfgCharset :
    (s.resetEvent).cfgCharset = 0#1 := rfl
@[simp] theorem State.resetEvent_cfgCharlistLen :
    (s.resetEvent).cfgCharlistLen = 0#16 := rfl
@[simp] theorem State.resetEvent_cfgTableLen :
    (s.resetEvent).cfgTableLen = 0#22 := rfl
@[simp] theorem State.resetEvent_mem :
    (s.resetEvent).mem = s.mem.keep inRom := rfl
@[simp] theorem State.resetEvent_params :
    (s.resetEvent).params = s.params := rfl
@[simp] theorem State.resetEvent_pending :
    (s.resetEvent).pending = s.pending := rfl
@[simp] theorem State.resetEvent_readLog :
    (s.resetEvent).readLog = s.readLog := rfl
@[simp] theorem State.resetEvent_latencies :
    (s.resetEvent).latencies = s.latencies := rfl
@[simp] theorem State.resetEvent_memDraw :
    (s.resetEvent).memDraw = s.memDraw + 1 := rfl
@[simp] theorem State.resetEvent_frameDraw :
    (s.resetEvent).frameDraw = s.frameDraw + 1 := rfl
@[simp] theorem State.resetEvent_draws :
    (s.resetEvent).draws = s.draws := rfl

end

section
variable (f : Status)

@[simp] theorem Status.issued_done : (f.issued).done = false := rfl
@[simp] theorem Status.issued_err : (f.issued).err = false := rfl
@[simp] theorem Status.issued_faultSeen : (f.issued).faultSeen = f.faultSeen := rfl
@[simp] theorem Status.issued_overrun : (f.issued).overrun = f.overrun := rfl
@[simp] theorem Status.issued_errcode : (f.issued).errcode = 0#4 := rfl

@[simp] theorem Status.succeeded_done : (f.succeeded).done = true := rfl
@[simp] theorem Status.succeeded_err : (f.succeeded).err = false := rfl
@[simp] theorem Status.succeeded_faultSeen : (f.succeeded).faultSeen = f.faultSeen := rfl
@[simp] theorem Status.succeeded_overrun : (f.succeeded).overrun = f.overrun := rfl
@[simp] theorem Status.succeeded_errcode : (f.succeeded).errcode = 0#4 := rfl

@[simp] theorem Status.failed_done (e : CmdError) : (f.failed e).done = false := rfl
@[simp] theorem Status.failed_err (e : CmdError) : (f.failed e).err = true := rfl
@[simp] theorem Status.failed_faultSeen (e : CmdError) : (f.failed e).faultSeen = true := rfl
@[simp] theorem Status.failed_overrun (e : CmdError) : (f.failed e).overrun = f.overrun := rfl
@[simp] theorem Status.failed_errcode (e : CmdError) : (f.failed e).errcode = e.code := rfl

@[simp] theorem Status.overran_done : (f.overran).done = f.done := rfl
@[simp] theorem Status.overran_err : (f.overran).err = f.err := rfl
@[simp] theorem Status.overran_faultSeen : (f.overran).faultSeen = f.faultSeen := rfl
@[simp] theorem Status.overran_overrun : (f.overran).overrun = true := rfl
@[simp] theorem Status.overran_errcode : (f.overran).errcode = f.errcode := rfl

end

end Sys2Proof.Machine
end

