-- ==== Sys2Proof/Laws/Ops.lean ====
section
/-! SUPPORT. What each shared operation can do, said once: the byte and entry reads after each store, the frame buffer, the
payload binding that every completion keeps, and the cases of a host access, a host turn and a step. -/

namespace Sys2Proof.Machine

/-! Entries and their bytes. -/

/-- The four stored bytes of an entry make the entry. -/
theorem wordOfBytes_wordBytes (v : Word) :
    wordOfBytes ((wordBytes v).getD 0 0#8) ((wordBytes v).getD 1 0#8) ((wordBytes v).getD 2 0#8)
      ((wordBytes v).getD 3 0#8) = v := by
  apply BitVec.eq_of_toNat_eq
  have := v.isLt
  simp only [wordOfBytes, wordBytes, List.getD_cons_zero, List.getD_cons_succ, BitVec.toNat_ofNat]
  omega

theorem belowFrame_iff (a : Nat) : belowFrame a = true ↔ a < frameBase := by
  simp [belowFrame]

theorem inRom_iff (a : Nat) : inRom a = true ↔ romBase ≤ a ∧ a < frameBase := by
  simp only [inRom, Bool.and_eq_true, decide_eq_true_eq]
  rfl

/-! Reads of one byte. -/

/-- A byte reads the same when its written value and the draws of unwritten content are the same. -/
theorem State.byteAt_congr {s t : State} {a : Nat} (hr : t.mem.read a = s.mem.read a)
    (hm : t.memDraw = s.memDraw) (hf : a < frameBase ∨ t.frameDraw = s.frameDraw) :
    t.byteAt a = s.byteAt a := by
  unfold State.byteAt State.unwritten
  rw [hr, hm]
  rcases hf with hf | hf
  · have := (belowFrame_iff a).mpr hf
    simp [this]
  · rw [hf]

/-- A byte that was written reads as it was written. -/
theorem State.byteAt_of_read {s : State} {a : Nat} {b : Byte} (h : s.mem.read a = some b) : s.byteAt a = b := by
  simp [State.byteAt, h]

@[simp] theorem State.byteAt_putByte (s : State) (a x : Nat) (b : Byte) :
    (s.putByte a b).byteAt x = if x = a then b else s.byteAt x := by
  by_cases h : x = a
  · subst h; simp [State.byteAt]
  · simp [State.byteAt, State.unwritten, h]

theorem State.byteAt_putWord_outside (s : State) (a x : Nat) (v : Word) (h : x < a ∨ a + 4 ≤ x) :
    (s.putWord a v).byteAt x = s.byteAt x := by
  refine State.byteAt_congr ?_ rfl (Or.inr rfl)
  simp only [State.putWord_mem, Memory.read_writeBytes, wordBytes, List.length_cons, List.length_nil]
  rw [if_neg (by omega)]

theorem State.byteAt_putWord_inside (s : State) (a k : Nat) (v : Word) (h : k < 4) :
    (s.putWord a v).byteAt (a + k) = (wordBytes v).getD k 0#8 := by
  refine State.byteAt_of_read ?_
  simp only [State.putWord_mem, Memory.read_writeBytes]
  rw [if_pos (by simp [wordBytes]; omega), Nat.add_sub_cancel_left]

/-- An entry reads back the word last written to it. -/
@[simp] theorem State.wordAt_putWord (s : State) (a : Nat) (v : Word) : (s.putWord a v).wordAt a = v := by
  unfold State.wordAt
  have h0 := State.byteAt_putWord_inside s a 0 v (by omega)
  rw [Nat.add_zero] at h0
  rw [h0, State.byteAt_putWord_inside s a 1 v (by omega), State.byteAt_putWord_inside s a 2 v (by omega),
    State.byteAt_putWord_inside s a 3 v (by omega)]
  exact wordOfBytes_wordBytes v

/-! The frame buffer. -/

theorem State.read_forgetFrame_below (s : State) {a : Nat} (h : a < frameBase) :
    s.forgetFrame.mem.read a = s.mem.read a := by
  simp [(belowFrame_iff a).mpr h]

theorem State.read_forgetFrame_frame (s : State) (f : Nat) : s.forgetFrame.mem.read (frameBase + f) = none := by
  simp [belowFrame]

theorem State.read_storeFrame_below (s : State) (frame : List Byte) {a : Nat} (h : a < frameBase) :
    (s.storeFrame frame).mem.read a = s.mem.read a := by
  simp only [State.storeFrame_mem, Memory.read_writeBytes, Memory.read_keep]
  rw [if_neg (by omega), if_pos ((belowFrame_iff a).mpr h)]

/-- FRAME_BUF after a frame was stored: the frame's bytes, and above them nothing written (41_chunker.md R197). -/
theorem State.read_storeFrame_frame (s : State) (frame : List Byte) (f : Nat) :
    (s.storeFrame frame).mem.read (frameBase + f) = frame[f]? := by
  simp only [State.storeFrame_mem, Memory.read_writeBytes, Memory.read_keep]
  by_cases h : f < frame.length
  · rw [if_pos (by omega), Nat.add_sub_cancel_left]
    simp [List.getD, h]
  · rw [if_neg (by omega), if_neg (by simp [belowFrame])]
    simp [Nat.le_of_not_lt h]

/-- Reading as many bytes of FRAME_BUF as a stored frame has gives the frame. -/
theorem State.memRead_of_frame {t : State} {frame : List Byte}
    (h : ∀ f, f < frame.length → t.mem.read (frameBase + f) = frame[f]?) :
    t.memRead frameBase 0 frame.length = frame := by
  apply List.ext_getElem
  · simp [State.memRead]
  · intro k h1 h2
    simp only [State.memRead, List.getElem_map, List.getElem_range, Nat.zero_add]
    exact State.byteAt_of_read (by rw [h k h2]; simp [h2])

/-! The payload binding. -/

theorem SamePayload.refl (s : State) : SamePayload s s :=
  ⟨rfl, rfl, rfl, rfl, rfl, rfl, rfl, rfl, rfl, fun _ _ => rfl⟩

theorem SamePayload.symm {s t : State} (h : SamePayload s t) : SamePayload t s :=
  ⟨h.variant.symm, h.dataLen.symm, h.frameCount.symm, h.phraseLen.symm, h.colorsLen.symm, h.charset.symm,
    h.charlistLen.symm, h.tableLen.symm, h.params.symm, fun a ha => (h.bytes a ha).symm⟩

theorem SamePayload.trans {s t u : State} (h : SamePayload s t) (h' : SamePayload t u) : SamePayload s u :=
  ⟨h'.variant.trans h.variant, h'.dataLen.trans h.dataLen, h'.frameCount.trans h.frameCount,
    h'.phraseLen.trans h.phraseLen, h'.colorsLen.trans h.colorsLen, h'.charset.trans h.charset,
    h'.charlistLen.trans h.charlistLen, h'.tableLen.trans h.tableLen, h'.params.trans h.params,
    fun a ha => (h'.bytes a ha).trans (h.bytes a ha)⟩

theorem SameFrame.refl (s : State) : SameFrame s s := ⟨rfl, fun _ _ => rfl⟩

theorem SameFrame.trans {s t u : State} (h : SameFrame s t) (h' : SameFrame t u) : SameFrame s u :=
  ⟨h'.frameLen.trans h.frameLen, fun a ha => (h'.bytes a ha).trans (h.bytes a ha)⟩

/-- What a successful completion leaves (60_exceptions.md R313). -/
theorem State.succeed_spec (s : State) (value : Nat) :
    SuccessCompletion s (s.succeed value) value ∧ SameFrame s (s.succeed value) :=
  ⟨⟨rfl, rfl, rfl, rfl, ⟨rfl, rfl, rfl, rfl, rfl, rfl, rfl, rfl, rfl, fun _ _ => rfl⟩, ⟨rfl, rfl, rfl, rfl⟩⟩,
    ⟨rfl, fun _ _ => rfl⟩⟩

/-- What an error completion of a query or an illegal word leaves (60_exceptions.md R301). -/
theorem State.raise_query_spec (s : State) (r : Raise) :
    ErrorCompletion s (s.raise false r) r.error.code r.info ∧ SameFrame s (s.raise false r) :=
  ⟨⟨rfl, rfl, rfl, rfl, ⟨rfl, rfl, rfl, rfl, rfl, rfl, rfl, rfl, rfl, fun _ _ => rfl⟩, ⟨rfl, rfl, rfl, rfl⟩⟩,
    ⟨rfl, fun _ _ => rfl⟩⟩

/-- What an error completion of GEN leaves (60_exceptions.md R301). -/
theorem State.raise_gen_spec (s : State) (r : Raise) :
    ErrorCompletion s (s.raise true r) r.error.code r.info ∧ (s.raise true r).frameLen = 0#9 ∧
      ∀ f, (s.raise true r).mem.read (frameBase + f) = none := by
  refine ⟨⟨rfl, rfl, rfl, rfl, ⟨rfl, rfl, rfl, rfl, rfl, rfl, rfl, rfl, rfl, fun a ha => ?_⟩, ⟨rfl, rfl, rfl, rfl⟩⟩, rfl,
    fun f => State.read_forgetFrame_frame s f⟩
  exact State.byteAt_congr (State.read_forgetFrame_below s ha) rfl (Or.inl ha)

/-- What a successful GEN leaves (41_chunker.md R197). -/
theorem State.genSucceed_spec (s : State) (frame : List Byte) (h : frame.length < 512) :
    SuccessCompletion s ((s.storeFrame frame).succeed frame.length) frame.length ∧
      ((s.storeFrame frame).succeed frame.length).frameLen.toNat = frame.length ∧
      ((s.storeFrame frame).succeed frame.length).frame = frame ∧
      (∀ f, ((s.storeFrame frame).succeed frame.length).mem.read (frameBase + f) = frame[f]?) ∧
      ∀ a, a < frameBase → ((s.storeFrame frame).succeed frame.length).mem.read a = s.mem.read a := by
  have hlen : ((s.storeFrame frame).succeed frame.length).frameLen.toNat = frame.length := by
    simp only [State.succeed_frameLen, State.storeFrame_frameLen, BitVec.toNat_ofNat]
    omega
  have hread : ∀ f, ((s.storeFrame frame).succeed frame.length).mem.read (frameBase + f) = frame[f]? :=
    State.read_storeFrame_frame s frame
  have hbelow : ∀ a, a < frameBase → ((s.storeFrame frame).succeed frame.length).mem.read a = s.mem.read a :=
    fun a ha => State.read_storeFrame_below s frame ha
  refine ⟨⟨rfl, rfl, rfl, rfl, ⟨rfl, rfl, rfl, rfl, rfl, rfl, rfl, rfl, rfl, fun a ha => ?_⟩, ⟨rfl, rfl, rfl, rfl⟩⟩,
    hlen, ?_, hread, hbelow⟩
  · exact State.byteAt_congr (hbelow a ha) rfl (Or.inl ha)
  · unfold State.frame
    rw [hlen]
    exact State.memRead_of_frame fun f _ => hread f

end Sys2Proof.Machine
end

