-- ==== Sys2Proof/Laws/HostPort.lean ====
section
/-! SUPPORT. The host port: where each window lies, and what a host read and a host write can do, said once. -/

namespace Sys2Proof.Machine

/-! A store to a CFG register leaves everything but the CFG registers. -/

section
variable (s : State) (r : Reg) (v : Word)

@[simp] theorem State.storeReg_inflight : (s.storeReg r v).inflight = s.inflight := by cases r <;> rfl
@[simp] theorem State.storeReg_status : (s.storeReg r v).status = s.status := by cases r <;> rfl
@[simp] theorem State.storeReg_result : (s.storeReg r v).result = s.result := by cases r <;> rfl
@[simp] theorem State.storeReg_frameLen : (s.storeReg r v).frameLen = s.frameLen := by cases r <;> rfl
@[simp] theorem State.storeReg_errInfo : (s.storeReg r v).errInfo = s.errInfo := by cases r <;> rfl
@[simp] theorem State.storeReg_mem : (s.storeReg r v).mem = s.mem := by cases r <;> rfl
@[simp] theorem State.storeReg_params : (s.storeReg r v).params = s.params := by cases r <;> rfl
@[simp] theorem State.storeReg_pending : (s.storeReg r v).pending = s.pending := by cases r <;> rfl
@[simp] theorem State.storeReg_readLog : (s.storeReg r v).readLog = s.readLog := by cases r <;> rfl
@[simp] theorem State.storeReg_latencies : (s.storeReg r v).latencies = s.latencies := by cases r <;> rfl
@[simp] theorem State.storeReg_memDraw : (s.storeReg r v).memDraw = s.memDraw := by cases r <;> rfl
@[simp] theorem State.storeReg_frameDraw : (s.storeReg r v).frameDraw = s.frameDraw := by cases r <;> rfl
@[simp] theorem State.storeReg_draws : (s.storeReg r v).draws = s.draws := by cases r <;> rfl

end

@[simp] theorem State.busy_eq_false (s : State) : s.busy = false ↔ s.inflight = none := by
  simp [State.busy]

/-- A latency taken changes only the environment's choices and the counter of draws (00_scope.md R12). -/
theorem State.takeLatency_spec (s : State) :
    ∃ lat dr, s.takeLatency.2 = { s with latencies := lat, draws := dr } := by
  unfold State.takeLatency
  split
  · exact ⟨_, _, rfl⟩
  · exact ⟨_, _, rfl⟩

/-- What a command issue does (10_state.md R35). -/
theorem State.issue_spec (s : State) (w : Word) :
    ∃ n lat dr, s.issue w =
      { s with
        inflight := some { word := w, remaining := n }, status := s.status.issued, latencies := lat, draws := dr } := by
  unfold State.issue
  split
  · obtain ⟨lat, dr, h⟩ := s.takeLatency_spec
    exact ⟨s.takeLatency.1, lat, dr, by rw [h]⟩
  · exact ⟨0, _, _, rfl⟩

/-- What a host read does to the state: nothing, or one draw (20_memory.md R87). -/
theorem State.hostRead_state (s : State) (width : Width) (a : Nat) :
    (s.hostRead width a).2 = s ∨ (s.hostRead width a).2 = { s with draws := s.draws + 1 } := by
  unfold State.hostRead State.readEntry State.readReg State.draw
  repeat' split
  all_goals first | exact Or.inl rfl | exact Or.inr rfl

/-- An offset holds the register whose offset it is (10_state.md R33). -/
theorem regAt_eq_some {a : Nat} {r : Reg} : regAt a = some r ↔ a = r.offset := by
  constructor
  · intro h
    unfold regAt at h
    split at h <;> cases h <;> rfl
  · rintro rfl
    cases r <;> rfl

theorem regAt_reserved {a : Nat} (h : (0x14 ≤ a ∧ a < 0x20) ∨ 0x40 ≤ a) : regAt a = none := by
  unfold regAt
  split <;> first | omega | rfl

/-! The windows as ranges of addresses (20_memory.md R81). -/

section
variable {p : Params} {a : Nat}

theorem windowAt_registers (h : a < 0x100) : windowAt p a = some .registers := if_pos h

theorem windowAt_byteMem (h : (0x010000 ≤ a ∧ a < 0x030000) ∨ (0x200000 ≤ a ∧ a < 0x400000)) :
    windowAt p a = some .payload ∨ windowAt p a = some .color ∨ windowAt p a = some .table := by
  unfold windowAt; split_ifs <;> simp <;> omega

theorem windowAt_wordMem (h : 0x100000 ≤ a ∧ a < 0x180000) :
    windowAt p a = some .phrase ∨ windowAt p a = some .charlist := by
  unfold windowAt; split_ifs <;> simp <;> omega

theorem windowAt_rom (h : 0x400000 ≤ a ∧ a < 0x600000) : windowAt p a = some .rom := by
  unfold windowAt; split_ifs <;> first | rfl | (exfalso; omega)

theorem windowAt_frame (h : 0x600000 ≤ a ∧ a < 0x600000 + p.frameBufBytes) : windowAt p a = some .frame := by
  unfold windowAt; split_ifs <;> first | rfl | (exfalso; omega)

theorem windowAt_reserved (h : (0x100 ≤ a ∧ a < 0x010000) ∨ (0x030000 ≤ a ∧ a < 0x100000) ∨
    (0x180000 ≤ a ∧ a < 0x200000) ∨ 0x600000 + p.frameBufBytes ≤ a) : windowAt p a = none := by
  unfold windowAt; split_ifs <;> first | rfl | (exfalso; omega)

theorem byteMem_of_windowAt {win : Window} (h : windowAt p a = some win)
    (hw : win = .payload ∨ win = .color ∨ win = .table) :
    (0x010000 ≤ a ∧ a < 0x030000) ∨ (0x200000 ≤ a ∧ a < 0x400000) := by
  unfold windowAt at h
  split_ifs at h <;> cases h <;> simp at hw <;> omega

theorem wordMem_of_windowAt {win : Window} (h : windowAt p a = some win)
    (hw : win = .phrase ∨ win = .charlist) : 0x100000 ≤ a ∧ a < 0x180000 := by
  unfold windowAt at h
  split_ifs at h <;> cases h <;> simp at hw <;> omega

end

theorem misaligned_w32 (a : Nat) : misaligned .w32 a = false ↔ a % 4 = 0 := by
  simp [misaligned]

/-- A performed access to a window: right width, aligned (20_memory.md R84, R85). -/
theorem State.hostRead_window {s : State} {width : Width} {a : Nat} {win : Window}
    (hm : misaligned width a = false) (hw : windowAt s.params a = some win) (he : win.entry = width) :
    s.hostRead width a = s.readEntry win a := by
  unfold State.hostRead
  rw [hm, hw]
  exact if_pos he

/-- A 32-bit read of a register at its offset (10_state.md R33). -/
theorem State.hostRead_reg (s : State) (r : Reg) : s.hostRead .w32 r.offset = s.readReg r := by
  have hread : s.hostRead .w32 r.offset = s.readEntry .registers r.offset :=
    State.hostRead_window (by cases r <;> rfl) (windowAt_registers (by cases r <;> decide)) rfl
  rw [hread]
  simp only [State.readEntry, regAt_eq_some.mpr rfl]

/-- Everything a host write can do (10_state.md R34, R35, 20_memory.md R81, R85, R90). -/
inductive WriteMove (s : State) (width : Width) (a : Nat) (v : Word) : State → Prop
  /-- An access that is not performed, or one to a place that ignores writes. -/
  | ignored : WriteMove s width a v s
  /-- A write dropped because a command is in flight. -/
  | drop (place : WritablePlace width a) (busy : s.busy = true) : WriteMove s width a v s.dropWrite
  /-- The issue of a command by an idle block. -/
  | issue (hw : width = .w32) (ha : a = 0) (idle : s.busy = false) : WriteMove s width a v (s.issue v)
  /-- A store to a CFG register of an idle block. -/
  | store (r : Reg) (hw : width = .w32) (ha : a = r.offset) (idle : s.busy = false) :
    WriteMove s width a v (s.storeReg r v)
  /-- A store to an entry of an 8-bit payload memory of an idle block. -/
  | byte (hw : width = .w8) (ha : (0x010000 ≤ a ∧ a < 0x030000) ∨ (0x200000 ≤ a ∧ a < 0x400000))
    (idle : s.busy = false) : WriteMove s width a v (s.putByte a (lowByte v))
  /-- A store to an entry of a 32-bit payload memory of an idle block. -/
  | word (hw : width = .w32) (ha : (0x100000 ≤ a ∧ a < 0x180000) ∧ a % 4 = 0) (idle : s.busy = false) :
    WriteMove s width a v (s.putWord a v)

theorem Reg.offset_writable {r : Reg} (h : r.readOnly = false) : WritablePlace .w32 r.offset := by
  cases r <;> first | exact Or.inl ⟨rfl, by decide, by decide⟩ | cases h

theorem State.writeReg_move (s : State) (r : Reg) (v : Word) :
    WriteMove s .w32 r.offset v (s.writeReg r v) := by
  unfold State.writeReg
  split_ifs with h1 h2 h3
  · exact .ignored
  · exact .drop (Reg.offset_writable (by simpa using h1)) h2
  · subst h3; exact .issue rfl rfl (by simpa using h2)
  · exact .store r rfl rfl (by simpa using h2)

theorem State.byteWrite_move (s : State) {a : Nat} (v : Word)
    (ha : (0x010000 ≤ a ∧ a < 0x030000) ∨ (0x200000 ≤ a ∧ a < 0x400000)) :
    WriteMove s .w8 a v (if s.busy then s.dropWrite else s.putByte a (lowByte v)) := by
  split_ifs with h
  · exact .drop (Or.inr ⟨rfl, ha⟩) h
  · exact .byte rfl ha (by simpa using h)

theorem State.wordWrite_move (s : State) {a : Nat} (v : Word) (ha : 0x100000 ≤ a ∧ a < 0x180000) (h4 : a % 4 = 0) :
    WriteMove s .w32 a v (if s.busy then s.dropWrite else s.putWord a v) := by
  split_ifs with h
  · exact .drop (Or.inl ⟨rfl, h4, Or.inr (Or.inr ha)⟩) h
  · exact .word rfl ⟨ha, h4⟩ (by simpa using h)

/-- A host write is one of these moves. -/
theorem State.hostWrite_move (s : State) (width : Width) (a : Nat) (v : Word) :
    WriteMove s width a v (s.hostWrite width a v) := by
  unfold State.hostWrite
  split
  · exact .ignored
  · rename_i hm
    cases hw : windowAt s.params a with
    | none => exact .ignored
    | some win =>
      dsimp only
      split
      · rename_i he
        subst he
        cases win with
        | registers =>
          simp only [State.writeEntry]
          cases hr : regAt a with
          | none => exact .ignored
          | some r => rw [regAt_eq_some.mp hr]; exact s.writeReg_move r v
        | rom => exact .ignored
        | frame => exact .ignored
        | payload => exact s.byteWrite_move v (byteMem_of_windowAt hw (by simp))
        | color => exact s.byteWrite_move v (byteMem_of_windowAt hw (by simp))
        | table => exact s.byteWrite_move v (byteMem_of_windowAt hw (by simp))
        | phrase =>
          exact s.wordWrite_move v (wordMem_of_windowAt hw (by simp))
            ((misaligned_w32 a).mp (by simpa [Window.entry] using hm))
        | charlist =>
          exact s.wordWrite_move v (wordMem_of_windowAt hw (by simp))
            ((misaligned_w32 a).mp (by simpa [Window.entry] using hm))
      · exact .ignored

end Sys2Proof.Machine
end

