-- ==== Sys2Proof/Laws/Payload.lean ====
section
/-! SUPPORT. Everything a command computes depends on the payload binding alone: each function of the planner, the glyph
renderer and the chunker gives equal results on states with the same payload. -/

namespace Sys2Proof.Machine

theorem findSome?_congr {α β : Type} {f g : α → Option β} {l : List α} (h : ∀ x ∈ l, f x = g x) :
    l.findSome? f = l.findSome? g := by
  induction l with
  | nil => rfl
  | cons x rest ih =>
    simp only [List.findSome?_cons]
    rw [h x (by simp), ih fun y hy => h y (by simp [hy])]

section
variable {s t : State} (h : SamePayload s t)
include h

theorem SamePayload.variant_eq : t.variant = s.variant := by
  unfold State.variant; rw [h.variant]

theorem SamePayload.dataLen_eq : t.dataLen = s.dataLen := congrArg BitVec.toNat h.dataLen

theorem SamePayload.phraseLen_eq : t.phraseLen = s.phraseLen := congrArg BitVec.toNat h.phraseLen

theorem SamePayload.colorsLen_eq : t.colorsLen = s.colorsLen := congrArg BitVec.toNat h.colorsLen

theorem SamePayload.charlistLen_eq : t.charlistLen = s.charlistLen := congrArg BitVec.toNat h.charlistLen

theorem SamePayload.tableLen_eq : t.tableLen = s.tableLen := by
  unfold State.tableLen; rw [h.tableLen]

theorem SamePayload.custom_eq : t.custom = s.custom := by
  unfold State.custom; rw [h.charset]

theorem SamePayload.wordAt_eq {a : Nat} (ha : a + 3 < frameBase) : t.wordAt a = s.wordAt a := by
  unfold State.wordAt
  rw [h.bytes a (by omega), h.bytes (a + 1) (by omega), h.bytes (a + 2) (by omega), h.bytes (a + 3) (by omega)]

theorem SamePayload.memRead_eq {base a n : Nat} (ha : base + (a + n) ≤ frameBase) :
    t.memRead base a n = s.memRead base a n := by
  unfold State.memRead
  refine List.map_congr_left fun k hk => ?_
  rw [List.mem_range] at hk
  exact h.bytes _ (by omega)

theorem SamePayload.charCode_eq {i : Nat} (hi : i < 65536) : t.charCode i = s.charCode i :=
  h.wordAt_eq (by simp only [phraseBase, frameBase]; omega)

theorem SamePayload.listCode_eq {k : Nat} (hk : k < 65536) : t.listCode k = s.listCode k :=
  h.wordAt_eq (by simp only [charlistBase, frameBase]; omega)

theorem SamePayload.colorTag_eq (i : Nat) (hc : 0 < s.colorsLen) : t.colorTag i = s.colorTag i := by
  unfold State.colorTag
  rw [h.colorsLen_eq]
  refine h.bytes _ ?_
  have h1 : i % s.colorsLen < s.colorsLen := Nat.mod_lt _ hc
  have h2 : s.colorsLen < 65536 := s.cfgColorsLen.isLt
  simp only [colorBase, frameBase]
  omega

theorem SamePayload.listPosition_eq (c : Word) : listPosition t c = listPosition s c := by
  unfold listPosition
  rw [h.charlistLen_eq]
  congr 1
  have hlt : s.charlistLen < 65536 := s.cfgCharlistLen.isLt
  refine List.find?_congr fun k hk => ?_
  rw [List.mem_range] at hk
  rw [h.listCode_eq (by omega)]

theorem SamePayload.glyph_eq (c : Word) : glyph t c = glyph s c := by
  unfold glyph glyphCustom glyphBuiltin
  rw [h.custom_eq, h.charlistLen_eq, h.listPosition_eq, h.tableLen_eq]
  split
  · split
    · rfl
    · dsimp only
      split
      · rfl
      · have : s.tableLen ≤ Config.tableCapacity := Nat.min_le_right _ _
        rw [h.memRead_eq (by simp only [tableBase, frameBase, Config.tableCapacity, Config.glyphBytes] at *; omega)]
  · split
    · rw [h.memRead_eq (by simp only [romBase, frameBase, Config.builtinGlyphs, Config.glyphBytes] at *; omega)]
    · rfl

theorem SamePayload.span_eq {i : Nat} (hi : i < 65536) : span t i = span s i := by
  unfold span; rw [h.charCode_eq hi, h.glyph_eq]

/-- The tag of a character; with an empty colour list it is the byte at the character's own position, which no command
reads. -/
theorem SamePayload.colorTag_eq' {i : Nat} (hi : i < 65536) : t.colorTag i = s.colorTag i := by
  by_cases hc : 0 < s.colorsLen
  · exact h.colorTag_eq i hc
  · unfold State.colorTag
    rw [h.colorsLen_eq, show s.colorsLen = 0 by omega, Nat.mod_zero]
    exact h.bytes _ (by simp only [colorBase, frameBase]; omega)

theorem SamePayload.gatedSpan_eq {i : Nat} (hi : i < 65536) (p : Channel) : gatedSpan t i p = gatedSpan s i p := by
  unfold gatedSpan; rw [h.colorTag_eq' hi, h.span_eq hi]

theorem SamePayload.gatedSpans_eq : gatedSpans t = gatedSpans s := by
  unfold gatedSpans
  rw [h.phraseLen_eq]
  have hlt : s.phraseLen < 65536 := s.cfgPhraseLen.isLt
  refine List.flatMap_congr fun p _ => List.map_congr_left fun i hi => ?_
  rw [List.mem_range] at hi
  exact h.gatedSpan_eq (by omega) p

theorem SamePayload.scanChar_eq {i : Nat} (hi : i < 65536) : scanChar t i = scanChar s i := by
  unfold scanChar; rw [h.colorsLen_eq, h.colorTag_eq' hi, h.charCode_eq hi, h.glyph_eq]

theorem SamePayload.validationScan_eq : validationScan t = validationScan s := by
  unfold validationScan
  rw [h.phraseLen_eq]
  have hlt : s.phraseLen < 65536 := s.cfgPhraseLen.isLt
  refine findSome?_congr fun i hi => ?_
  rw [List.mem_range] at hi
  exact h.scanChar_eq (by omega)

theorem SamePayload.spanSum_eq : spanSum t = spanSum s := by
  unfold spanSum
  rw [h.phraseLen_eq]
  have hlt : s.phraseLen < 65536 := s.cfgPhraseLen.isLt
  congr 1
  refine List.map_congr_left fun i hi => ?_
  rw [List.mem_range] at hi
  rw [h.span_eq (by omega)]

theorem SamePayload.contentTotal_eq (v : Variant) : contentTotal t v = contentTotal s v := by
  cases v
  · simp only [contentTotal, textTotal]
    rw [h.params, h.gatedSpans_eq, h.spanSum_eq]
  · exact h.dataLen_eq
  · exact h.dataLen_eq

theorem SamePayload.plan_eq : plan t = plan s := by
  unfold plan
  rw [h.variant_eq]
  cases hv : s.variant with
  | none => rfl
  | some v =>
    have hc : payloadCheck t v = payloadCheck s v := by
      cases v
      · exact h.validationScan_eq
      · rfl
      · rfl
    simp only [hc, h.contentTotal_eq]

theorem SamePayload.header_eq (v : Variant) (total : Nat) : header t v total = header s v total := by
  unfold header visibleHeader
  rw [h.params, h.dataLen_eq, h.frameCount]

theorem SamePayload.content_eq (v : Variant) {a m : Nat} (hm : m = 0 ∨ a + m ≤ contentTotal s v) :
    content t v a m = content s v a m := by
  have hlt : s.dataLen < 65536 := s.cfgDataLen.isLt
  have hread : m = 0 ∨ a + m ≤ s.dataLen → t.memRead payloadBase a m = s.memRead payloadBase a m := by
    rintro (rfl | hm)
    · rfl
    · exact h.memRead_eq (by simp only [payloadBase, frameBase]; omega)
  cases v
  · simp only [content, window, h.gatedSpans_eq]
  · exact hread hm
  · exact hread hm

theorem SamePayload.makeBody_eq (v : Variant) (index : Nat) :
    makeBody t v index (contentTotal s v) = makeBody s v index (contentTotal s v) := by
  unfold makeBody
  simp only [h.header_eq]
  rw [h.content_eq v]
  unfold contentLength
  split
  · rename_i h0
    right
    simp only [alreadySent, h0, if_true]
    omega
  · omega

/-- GEN's result is a function of the index and the payload (41_chunker.md R196). -/
theorem SamePayload.generate_eq (index : Nat) : generate t index = generate s index := by
  unfold generate
  rw [h.plan_eq]
  cases hp : plan s with
  | error r => rfl
  | ok q =>
    obtain ⟨v, total⟩ := q
    have hq : total = contentTotal s v := by
      unfold plan at hp
      split at hp
      · cases hp
      · split at hp
        · cases hp
        · cases hp; rfl
    subst hq
    have hf : packetFrame t v index (contentTotal s v) = packetFrame s v index (contentTotal s v) := by
      unfold packetFrame; rw [h.makeBody_eq]
    dsimp only
    rw [hf, h.params]

end

end Sys2Proof.Machine
end

