-- ==== Sys2Proof/Laws/PerInstr.lean ====
section
/-! SUPPORT. The statements made per command: the fields of a command's word (30_encoding.md R111 to R113). -/

namespace Sys2Proof.Laws

/-- The word of a well-formed command holds its opcode in bits 31:28, 0 in RSV (bits 27:16) and its operand in ARG (bits
15:0) (30_encoding.md R111, R113). -/
def EncodedFields.Statement (i : Instr) : Prop :=
  i.wellFormed = true →
    bitField (encode i) 31 28 = i.opcode ∧ bitField (encode i) 27 16 = 0 ∧ bitField (encode i) 15 0 = i.arg

theorem EncodedFields.qtotal : EncodedFields.Statement .qtotal := fun _ => by decide

theorem EncodedFields.qpad : EncodedFields.Statement .qpad := fun _ => by decide

theorem EncodedFields.qcount : EncodedFields.Statement .qcount := fun _ => by decide

theorem EncodedFields.gen (index : Nat) : EncodedFields.Statement (.gen index) := by
  intro h
  have hi : index ≤ 65535 := by simpa [Instr.wellFormed] using h
  simp only [bitField, encode, Instr.opcode, Instr.arg, BitVec.toNat_ofNat]
  norm_num
  omega

end Sys2Proof.Laws
end

