-- ==== Sys2Proof/Laws/Step.lean ====
section
/-! SUPPORT. The cases of a step, said once: what a host turn can do, what the completion of a command can do, and that a
step is one of the two. -/

namespace Sys2Proof.Machine

/-- What a host turn can make of a state, with the host's action that makes it (20_memory.md R89 to R91,
70_reset_and_hazards.md R340). -/
inductive HostMove (s : State) : State → Prop
  /-- A read, a poll, an idle turn or an ignored write: only the host's own bookkeeping changes, and the next action is taken,
  but for a poll that has read BUSY = 1. -/
  | quiet (pend : List HostAction) (log : List Word) (dr : Nat)
    (h : pend = s.pending.tail ∨ (s.busy = true ∧ pend = s.pending)) :
    HostMove s { s with pending := pend, readLog := log, draws := dr }
  /-- A write dropped because a command is in flight. -/
  | drop (pend : List HostAction) (width : Width) (addr : BitVec 23) (v : Word)
    (h : s.pending = .write width addr v :: pend) (place : WritablePlace width addr.toNat) (busy : s.busy = true) :
    HostMove s { s with pending := pend, status := s.status.overran }
  /-- The issue of a command by an idle block. -/
  | issue (pend : List HostAction) (w : Word) (n : Nat) (lat : List Nat) (dr : Nat)
    (h : s.pending = .write .w32 0x00#23 w :: pend) (idle : s.busy = false) :
    HostMove s
      { s with
        pending := pend, inflight := some { word := w, remaining := n }, status := s.status.issued,
        latencies := lat, draws := dr }
  /-- A store to a CFG register of an idle block. -/
  | store (pend : List HostAction) (r : Reg) (addr : BitVec 23) (v : Word)
    (h : s.pending = .write .w32 addr v :: pend) (ha : addr.toNat = r.offset) (idle : s.busy = false) :
    HostMove s ({ s with pending := pend }.storeReg r v)
  /-- A store to an entry of an 8-bit payload memory of an idle block. -/
  | byte (pend : List HostAction) (addr : BitVec 23) (v : Word) (h : s.pending = .write .w8 addr v :: pend)
    (ha : (0x010000 ≤ addr.toNat ∧ addr.toNat < 0x030000) ∨ (0x200000 ≤ addr.toNat ∧ addr.toNat < 0x400000))
    (idle : s.busy = false) : HostMove s ({ s with pending := pend }.putByte addr.toNat (lowByte v))
  /-- A store to an entry of a 32-bit payload memory of an idle block. -/
  | word (pend : List HostAction) (addr : BitVec 23) (v : Word) (h : s.pending = .write .w32 addr v :: pend)
    (ha : (0x100000 ≤ addr.toNat ∧ addr.toNat < 0x180000) ∧ addr.toNat % 4 = 0) (idle : s.busy = false) :
    HostMove s ({ s with pending := pend }.putWord addr.toNat v)
  /-- The reset event. -/
  | reset (pend : List HostAction) (h : s.pending = .reset :: pend) :
    HostMove s { s with pending := pend }.resetEvent

/-- A host write, as the host's next action, is one of these moves. -/
theorem HostMove.of_write {s : State} {rest : List HostAction} {width : Width} {addr : BitVec 23} {v : Word}
    (hp : s.pending = .write width addr v :: rest) {t : State}
    (h : WriteMove { s with pending := rest } width addr.toNat v t) : HostMove s t := by
  cases h with
  | ignored => exact .quiet rest s.readLog s.draws (Or.inl (by rw [hp]; rfl))
  | drop place busy => exact .drop rest width addr v hp place busy
  | issue hw ha idle =>
    obtain ⟨n, lat, dr, hi⟩ := State.issue_spec { s with pending := rest } v
    have h0 : addr = 0x00#23 := BitVec.eq_of_toNat_eq ha
    subst hw h0
    rw [hi]
    exact .issue rest v n lat dr hp idle
  | store r hw ha idle => subst hw; exact .store rest r addr v hp ha idle
  | byte hw ha idle => subst hw; exact .byte rest addr v hp ha idle
  | word hw ha idle => subst hw; exact .word rest addr v hp ha idle

/-- A host turn is one of these moves. -/
theorem State.hostTurn_move (s : State) : HostMove s s.hostTurn := by
  unfold State.hostTurn
  split
  · rename_i hp
    exact .quiet s.pending s.readLog s.draws (Or.inl (by rw [hp]; rfl))
  · rename_i a rest hp
    have htail : rest = s.pending.tail := by rw [hp]; rfl
    cases a with
    | read width addr =>
      simp only [State.act]
      rcases State.hostRead_state { s with pending := rest } width addr.toNat with h | h <;> rw [h]
      · exact .quiet rest _ s.draws (Or.inl htail)
      · exact .quiet rest _ (s.draws + 1) (Or.inl htail)
    | write width addr v => exact .of_write hp (State.hostWrite_move _ width addr.toNat v)
    | poll =>
      simp only [State.act]
      split
      · rename_i hb
        exact .quiet _ _ s.draws (Or.inr ⟨hb, hp.symm⟩)
      · exact .quiet rest _ s.draws (Or.inl htail)
    | idle => exact .quiet rest s.readLog s.draws (Or.inl htail)
    | reset => exact .reset rest hp

/-- What the completion of a command can make of a state (60_exceptions.md R300: "exactly one of two ways"). -/
inductive Completion (s : State) : State → Prop
  /-- An error completion of a query or an illegal word. -/
  | queryError (r : Raise) : Completion s (s.raise false r)
  /-- An error completion of GEN. -/
  | genError (r : Raise) : Completion s (s.raise true r)
  /-- The success of a query. -/
  | query (value : Nat) : Completion s (s.succeed value)
  /-- The success of GEN. -/
  | gen (index : Nat) (frame : List Byte) (h : generate s index = .ok frame) :
    Completion s ((s.storeFrame frame).succeed frame.length)

/-- Every command completes: exec answers a next state that is one of its completions. -/
theorem exec_completes (i : Instr) (s : State) : ∃ t, exec i s = .next t ∧ Completion s t := by
  cases i with
  | qtotal =>
    simp only [exec, execQtotal]
    split
    · exact ⟨_, rfl, .queryError _⟩
    · exact ⟨_, rfl, .query _⟩
  | qpad =>
    simp only [exec, execQpad]
    split
    · exact ⟨_, rfl, .queryError _⟩
    · exact ⟨_, rfl, .query _⟩
  | qcount =>
    simp only [exec, execQcount]
    split
    · exact ⟨_, rfl, .queryError _⟩
    · exact ⟨_, rfl, .query _⟩
  | gen index =>
    simp only [exec, execGen]
    split
    · exact ⟨_, rfl, .genError _⟩
    · rename_i frame h
      exact ⟨_, rfl, .gen index frame h⟩

theorem runWord_completes (w : Word) (s : State) : ∃ t, runWord w s = .next t ∧ Completion s t := by
  unfold runWord
  split
  · exact exec_completes _ s
  · exact ⟨_, rfl, .queryError _⟩

/-- A step is the completion of the due command, or a host turn, with the latency of a running command counted down. -/
theorem step_cases {s t : State} (h : step s = .next t) :
    (s.inflight = none ∧ HostMove s t) ∨
      (∃ w n, s.inflight = some { word := w, remaining := n + 1 } ∧
        HostMove { s with inflight := some { word := w, remaining := n } } t) ∨
      ∃ w, s.inflight = some { word := w, remaining := 0 } ∧ Completion s t := by
  unfold step turn at h
  split at h
  · rename_i hi
    cases h
    exact Or.inl ⟨hi, s.hostTurn_move⟩
  · rename_i c hi
    obtain ⟨w, n⟩ := c
    cases n with
    | zero =>
      obtain ⟨u, hu, hc⟩ := runWord_completes w s
      simp only [hu] at h
      cases h
      exact Or.inr (Or.inr ⟨w, hi, hc⟩)
    | succ n =>
      cases h
      exact Or.inr (Or.inl ⟨w, n, hi, State.hostTurn_move _⟩)

end Sys2Proof.Machine
end

