-- ==== Sys2Proof/Tests/Slice0.lean ====
section
/-! SUPPORT. The model's own tests: decoding of words written out from the spec, the vectors of 95_test_vectors.md, and for
each statement with hypotheses a witness that meets them all. -/

namespace Sys2Proof.Tests
open Sys2Proof Sys2Proof.Machine

/-! Helpers: small states, and a test of the next state an outcome holds. -/

/-- The outcome is a next state that passes the test. -/
def holdsNext (o : Host.Outcome State Fault Refusal) (p : State → Bool) : Bool :=
  match o with
  | .next t => p t
  | .fault _ => false
  | .refused _ => false

theorem next_of {o : Host.Outcome State Fault Refusal} {p : State → Bool} (h : holdsNext o p = true) :
    ∃ t, o = .next t ∧ p t = true := by
  cases o with
  | next t => exact ⟨t, rfl, h⟩
  | fault r => cases h
  | refused r => cases h

/-- The lookup gave a glyph. -/
def isGlyph (e : Except CmdError (List Byte)) : Bool :=
  match e with
  | .ok _ => true
  | .error _ => false

theorem glyph_of {e : Except CmdError (List Byte)} (h : isGlyph e = true) : ∃ g, e = .ok g := by
  cases e with
  | ok g => exact ⟨g, rfl⟩
  | error r => cases h

/-- An Image payload of `n` bytes whose first bytes are given. -/
def imageState (n : Nat) (bytes : List Byte) : State :=
  { State.reset with cfgVariant := 1#2, cfgDataLen := BitVec.ofNat 16 n,
                     mem := Memory.writeBytes [] payloadBase bytes }

/-- An Animation payload. -/
def animState (frames : Nat) (bytes : List Byte) : State :=
  { State.reset with cfgVariant := 2#2, cfgDataLen := BitVec.ofNat 16 bytes.length,
                     cfgFrameCount := BitVec.ofNat 8 frames, mem := Memory.writeBytes [] payloadBase bytes }

/-- The glyph gI of the Text fixture FX (95_test_vectors.md section 0): only pair 5 is non-zero. -/
def glyphI : List Byte := zeros 10 ++ [0x3F#8, 0xFC#8] ++ zeros 20

/-- A Text payload in custom mode with the one-entry list ['I'], the table gI, and the given phrase and tags. -/
def textState (phrase : List Word) (tags : List Byte) : State :=
  { State.reset with
      cfgPhraseLen := BitVec.ofNat 16 phrase.length
      cfgColorsLen := BitVec.ofNat 16 tags.length
      cfgCharset := 1#1
      cfgCharlistLen := 1#16
      cfgTableLen := 32#22
      mem := Memory.writeBytes (Memory.writeBytes (Memory.writeBytes (Memory.writeBytes []
        phraseBase (phrase.flatMap wordBytes)) charlistBase (wordBytes 0x49#32)) colorBase tags) tableBase glyphI }

/-- The Text payload of vector V-T7: "I" in Yellow. -/
def yellowI : State := textState [0x49#32] [0x04#8]

/-- `s` with one host action to come. -/
def withAction (s : State) (a : HostAction) : State :=
  { s with pending := [a] }

/-- `s` with a command word in flight that has `n` steps of latency left. -/
def running (s : State) (w : Word) (n : Nat) : State :=
  { s with inflight := some { word := w, remaining := n } }

/-! Decoding (30_encoding.md R111, R113, R115): words written out as OP, RSV, ARG. -/

theorem test_wellFormed_refuses_large_index :
    (Instr.gen 65536).wellFormed = false ∧ (Instr.gen 65535).wellFormed = true := by decide

theorem test_decode_qtotal : decode 0b00010000000000000000000000000000#32 = .ok .qtotal := by rfl

theorem test_decode_qpad : decode 0b00100000000000000000000000000000#32 = .ok .qpad := by rfl

theorem test_decode_qcount : decode 0b00110000000000000000000000000000#32 = .ok .qcount := by rfl

/-- ARG = 1000 0000 0000 0011 is index 32771. -/
theorem test_decode_gen : decode 0b01000000000000001000000000000011#32 = .ok (.gen 32771) := by rfl

/-- E1, E2, E3, E4 of 95_test_vectors.md section 6: each refused with its reason. -/
theorem test_decode_refuses_reserved_words :
    decode 0x00000000#32 = .error .reservedOpcode ∧ decode 0x10000001#32 = .error .queryWithOperand ∧
      decode 0x40010000#32 = .error .reservedBits ∧ decode 0x50000000#32 = .error .reservedOpcode := by
  exact ⟨rfl, rfl, rfl, rfl⟩

/-- R118: mnemonics in any case, an index in decimal or hexadecimal, an index above 65535 refused. -/
theorem test_assemble :
    assemble ['q', 'P', 'A', 'D'] = some 0x20000000#32 ∧
      assemble ['g', 'e', 'n', ' ', '0', 'x', 'f', 'F'] = some 0x400000FF#32 ∧
      assemble ['G', 'E', 'N', ' ', '6', '5', '5', '3', '6'] = none := by decide +kernel

/-- R119, R120: lines of programs V-P1, V-P2 and V-P3 as host accesses. -/
theorem test_script_lines :
    assembleScript ["wr CFG_DATA_LEN, 103 ; n".toList, "ww CHARLIST_MEM[1], 0x20".toList, "wb COLOR_MEM[0], 4, 5".toList,
        "cmd GEN 1".toList, "rd FRAME_BUF[0 .. 2)".toList] =
      some [.write .w32 0x24#23 103#32, .write .w32 0x140004#23 0x20#32, .write .w8 0x020000#23 4#32,
        .write .w8 0x020001#23 5#32, .write .w32 0x00#23 0x40000001#32, .poll, .read .w8 0x600000#23,
        .read .w8 0x600001#23] ∧
      assembleScript ["wb PAYLOAD_MEM[65535], 1, 2".toList] = none := by decide +kernel

/-- R119: a read beyond the default FRAME_BUF is a line, an empty range is a line with no read, and a bound beyond the host
address space is refused (log 16). -/
theorem test_script_rd_frame :
    assembleScript ["rd FRAME_BUF[275 .. 276)".toList, "rd FRAME_BUF[2 .. 2)".toList] = some [.read .w8 0x600113#23] ∧
      assembleScript ["rd FRAME_BUF[0 .. 2097153)".toList] = none := by decide +kernel

theorem test_decodeTableWord :
    decodeTableWord 32 0x40000001 = some (.gen 1) ∧ decodeTableWord 32 0x10000001 = none := by decide

/-! The commands, each as the first one after reset (70_reset_and_hazards.md R344; vector V-T3). -/

theorem test_reset_qtotal :
    holdsNext (step (State.reset.withFetchWord 32 0x10000000)) (fun t =>
      decide (t.statusWord = 0x00000002#32 ∧ t.result = 0#32)) = true := by decide +kernel

theorem test_reset_qpad :
    holdsNext (step (State.reset.withFetchWord 32 0x20000000)) (fun t =>
      decide (t.statusWord = 0x00000002#32 ∧ t.result = 107#32)) = true := by decide +kernel

theorem test_reset_qcount :
    holdsNext (step (State.reset.withFetchWord 32 0x30000000)) (fun t =>
      decide (t.statusWord = 0x00000002#32 ∧ t.result = 1#32)) = true := by decide +kernel

theorem test_reset_gen :
    holdsNext (step (State.reset.withFetchWord 32 0x40000000)) (fun t =>
      decide (t.result = 120#32 ∧ t.frame = [0x01#8, 0x00#8, 0x73#8, 0x02#8, 0x06#8, 0x00#8, 0x00#8, 0x6B#8, 0x00#8,
        0x00#8, 0x6B#8] ++ zeros 108 ++ [0x03#8])) = true := by decide +kernel

/-! Vectors of 95_test_vectors.md sections 2 to 6. -/

/-- V-I4: seven data bytes, each control byte escaped. -/
theorem test_gen_image_escapes :
    holdsNext (exec (.gen 0) (imageState 7 [0x01#8, 0x02#8, 0x03#8, 0x04#8, 0x00#8, 0x02#8, 0x02#8])) (fun t =>
      decide (t.frameLen = 52#9 ∧ t.frame = [0x01#8, 0x00#8, 0x29#8, 0x02#8, 0x07#8, 0x00#8, 0x00#8, 0x21#8, 0x00#8,
        0x00#8, 0x21#8] ++ zeros 25 ++ [0x07#8, 0x02#8, 0x05#8, 0x02#8, 0x06#8, 0x02#8, 0x07#8, 0x04#8, 0x00#8, 0x02#8,
        0x06#8, 0x02#8, 0x06#8, 0x02#8, 0x07#8, 0x03#8])) = true := by decide +kernel

/-- V-A1. -/
theorem test_gen_animation :
    holdsNext (exec (.gen 0) (animState 2 [0xAA#8, 0xBB#8, 0xCC#8, 0xDD#8])) (fun t =>
      decide (t.frameLen = 45#9 ∧ t.frame = [0x01#8, 0x00#8, 0x27#8, 0x04#8, 0x00#8, 0x00#8, 0x1F#8, 0x00#8, 0x00#8,
        0x1F#8] ++ zeros 24 ++ [0x02#8, 0x06#8, 0x02#8, 0x05#8, 0xF4#8, 0xAA#8, 0xBB#8, 0xCC#8, 0xDD#8, 0xF7#8,
        0x03#8])) = true := by decide +kernel

/-- V-T7: "I" in Yellow, packet 1 of 2. -/
theorem test_gen_text_continuation :
    holdsNext (exec (.gen 1) yellowI) (fun t =>
      decide (t.frameLen = 18#9 ∧ t.frame = [0x01#8, 0x00#8, 0x0B#8, 0x02#8, 0x06#8, 0x00#8, 0x00#8, 0x83#8, 0x00#8,
        0x02#8, 0x05#8, 0x02#8, 0x07#8, 0x00#8, 0x00#8, 0x00#8, 0x81#8, 0x03#8])) = true := by decide +kernel

/-- V-Q3: the total of "I" in Yellow is 24, and 12 under PER_CHAR_X3. -/
theorem test_qtotal_text :
    holdsNext (exec .qtotal yellowI) (fun t => decide (t.result = 24#32)) = true ∧
      holdsNext (exec .qtotal { yellowI with params := { yellowI.params with textTotalRule := .perCharX3 } })
        (fun t => decide (t.result = 12#32)) = true := by decide +kernel

/-- V-Q2: Image of 102 and of 103 bytes. -/
theorem test_qcount_boundary :
    holdsNext (exec .qcount (imageState 102 [])) (fun t => decide (t.result = 1#32)) = true ∧
      holdsNext (exec .qcount (imageState 103 [])) (fun t => decide (t.result = 2#32)) = true := by decide +kernel

/-- E5: QPAD with CFG_VARIANT = 3 is BAD_VARIANT. -/
theorem test_qpad_bad_variant :
    holdsNext (exec .qpad { State.reset with cfgVariant := 3#2 }) (fun t =>
      decide (t.statusWord = 0x0000020C#32 ∧ t.result = 0#32)) = true := by decide +kernel

/-- E2: the illegal word 0x10000001. -/
theorem test_illegal_word :
    holdsNext (step (State.reset.withFetchWord 32 0x10000001)) (fun t =>
      decide (t.statusWord = 0x0000010C#32 ∧ t.errInfo = 0x10000001#32)) = true := by decide +kernel

/-- V-G1: first and last pair non-zero keep the whole glyph; a blank glyph gives 16 zero bytes. -/
theorem test_trim :
    trim ([0x01#8] ++ zeros 30 ++ [0x01#8]) = [0x01#8] ++ zeros 30 ++ [0x01#8] ∧ trim (zeros 32) = zeros 16 ∧
      trim glyphI = [0x3F#8, 0xFC#8] := by decide +kernel

/-- F3, F4, F6, F7. -/
theorem test_escape :
    escape [0x01#8, 0x02#8, 0x03#8] = [0x02#8, 0x05#8, 0x02#8, 0x06#8, 0x02#8, 0x07#8] ∧
      escape [0x02#8, 0x02#8] = [0x02#8, 0x06#8, 0x02#8, 0x06#8] ∧
      escape [0x04#8, 0x05#8, 0x06#8, 0x07#8] = [0x04#8, 0x05#8, 0x06#8, 0x07#8] ∧
      unescape [0x02#8, 0x05#8, 0x02#8, 0x06#8, 0x02#8, 0x07#8, 0x04#8] = [0x01#8, 0x02#8, 0x03#8, 0x04#8] := by
  decide +kernel

/-- V-P5, first column: a write to CFG_VARIANT while a command runs is dropped and sets OVERRUN. -/
theorem test_write_while_busy :
    holdsNext (step (withAction (running (animState 0 []) 0x40000000#32 1) (.write .w32 0x20#23 1#32))) (fun t =>
      decide (t.cfgVariant = 2#2 ∧ t.statusWord = 0x00000011#32)) = true := by decide +kernel

/-! Witnesses: for each statement with hypotheses a concrete state and operands that meet them all together. -/

theorem witness_DecodeEncodeRoundTrip : (Instr.gen 65535).wellFormed = true ∧ Instr.qtotal.wellFormed = true := by decide

theorem witness_EncodeDecodeRoundTrip : decode 0x4000FFFF#32 = .ok (.gen 65535) := by rfl

theorem witness_StepRunsDecodedInstruction :
    (running State.reset 0x40000007#32 0).inflight = some { word := 0x40000007#32, remaining := 0 } ∧
      decode 0x40000007#32 = .ok (.gen 7) := by exact ⟨rfl, rfl⟩

theorem witness_IllegalWordCompletesWithIllegalCmd :
    (running State.reset 0x50000000#32 0).inflight = some { word := 0x50000000#32, remaining := 0 } ∧
      decode 0x50000000#32 = .error .reservedOpcode := by exact ⟨rfl, rfl⟩

theorem witness_IllegalWordCompletesAtOnceAndLeavesFrame :
    State.reset.inflight = none ∧
      (withAction State.reset (.write .w32 0x00#23 0x10000001#32)).pending = .write .w32 0x00#23 0x10000001#32 :: [] ∧
      decode 0x10000001#32 = .error .queryWithOperand := by exact ⟨rfl, rfl, rfl⟩

/-- The write of a legal and of an illegal word. -/
theorem witness_CmdWriteIssuesTheCommand :
    State.reset.inflight = none ∧
      (withAction State.reset (.write .w32 0x00#23 0x20000000#32)).pending = .write .w32 0x00#23 0x20000000#32 :: [] ∧
      (withAction State.reset (.write .w32 0x00#23 0x50000000#32)).pending = .write .w32 0x00#23 0x50000000#32 :: [] := by
  exact ⟨rfl, rfl, rfl⟩

/-- One step of latency left, and the host's next action a dropped write. -/
theorem witness_CommandCompletesOnThePayloadOfItsIssue :
    (withAction (running State.reset 0x40000000#32 1) (.write .w32 0x20#23 1#32)).inflight =
        some { word := 0x40000000#32, remaining := 1 } ∧
      decode 0x40000000#32 = .ok (.gen 0) ∧
      ∀ a ∈ (withAction (running State.reset 0x40000000#32 1) (.write .w32 0x20#23 1#32)).pending.take 1,
        a ≠ .reset := by decide +kernel

theorem witness_EveryAcceptedCommandEnds :
    (running State.reset 0x40000000#32 5).inflight = some { word := 0x40000000#32, remaining := 5 } := by rfl

theorem witness_CmdScriptLineRunsToItsEnd :
    ({ State.reset with pending := expandLine (.cmd .qpad) ++ [] } : State).inflight = none ∧
      Instr.qpad.wellFormed = true ∧
      ({ State.reset with pending := expandLine (.cmd .qpad) ++ [] } : State).pending =
        expandLine (.cmd .qpad) ++ [] := by exact ⟨rfl, rfl, rfl⟩

/-- A state with QPAD due meets the invariant and its step answers. -/
theorem witness_StepKeepsInvariant :
    (running State.reset 0x20000000#32 0).Inv ∧
      ∃ t, step (running State.reset 0x20000000#32 0) = .next t := by
  refine ⟨?_, ?_⟩
  · constructor <;> simp [running, State.reset, Config.defaultParams]
  · obtain ⟨t, h, _⟩ := next_of (p := fun _ => true)
      (show holdsNext (step (running State.reset 0x20000000#32 0)) (fun _ => true) = true by decide +kernel)
    exact ⟨t, h⟩

/-- The three premises of the clauses: a set FAULT_SEEN, a set OVERRUN, and a step that raises ERR. -/
theorem witness_StickyFlagsClearOnlyByReset :
    holdsNext (step { State.reset with status := { State.reset.status with faultSeen := true, overrun := true } })
        (fun t => t.status.faultSeen && t.status.overrun) = true ∧
      State.reset.status.err = false ∧
      holdsNext (step (running State.reset 0x00000000#32 0)) (fun t => t.status.err) = true := by decide +kernel

/-- Each of the four events changes a flag: a completion, an issue, a dropped write, the reset event. -/
theorem witness_StatusIsWrittenOnlyByFourEvents :
    holdsNext (step (running State.reset 0x20000000#32 0)) (fun t => decide (t.status ≠ State.reset.status)) = true ∧
      holdsNext (step (withAction { State.reset with status := { State.reset.status with done := true } }
        (.write .w32 0x00#23 0#32))) (fun t => t.status.done == false) = true ∧
      holdsNext (step (withAction (running State.reset 0x20000000#32 1) (.write .w32 0x20#23 0#32)))
        (fun t => t.status.overrun) = true ∧
      holdsNext (step (withAction { State.reset with status := { State.reset.status with overrun := true } } .reset))
        (fun t => t.status.overrun == false) = true := by decide +kernel

theorem witness_BusyEndsOnlyByCompletionOrReset :
    (running State.reset 0x20000000#32 0).busy = true ∧
      holdsNext (step (running State.reset 0x20000000#32 0)) (fun t => t.busy == false) = true ∧
      holdsNext (step (withAction (running State.reset 0x20000000#32 1) .reset)) (fun t => t.busy == false) = true := by
  decide +kernel

/-- The least latency, the first and last GLYPH_ROM bytes and the two bounds of the other addresses. -/
theorem witness_ResetEventAbandonsTheCommand :
    (withAction (running State.reset 0x40000000#32 1) .reset).inflight =
        some { word := 0x40000000#32, remaining := 0 + 1 } ∧
      (withAction (running State.reset 0x40000000#32 1) .reset).pending = .reset :: [] ∧
      0 < 2097152 ∧ 2097151 < 2097152 ∧ 0x3FFFFF < 0x400000 ∧ 0x600000 ≤ 0x600000 := by
  exact ⟨rfl, rfl, by decide, by decide, by decide, by decide⟩

/-- FRAME_BUF_BYTES at the bound 120. -/
theorem witness_EmptyTextPayloadNeedsNoMemory :
    let s : State := { State.reset with params := { Config.defaultParams with frameBufBytes := 120 } }
    s.cfgVariant = 0#2 ∧ s.cfgPhraseLen = 0#16 ∧ 120 ≤ s.params.frameBufBytes := by decide

theorem witness_QpadReturnsHeaderPadding :
    State.reset.cfgVariant ≠ 3#2 ∧ (imageState 0 []).cfgVariant ≠ 3#2 ∧ (animState 0 []).cfgVariant ≠ 3#2 := by decide

theorem witness_QtotalOfImageOrAnimationIsDataLen :
    (imageState 65535 []).cfgVariant = 1#2 ∧ (animState 1 [0x00#8]).cfgVariant = 2#2 := by decide

theorem witness_QcountOfImageOrAnimationIsCeilDiv :
    (imageState 103 []).cfgVariant = 1#2 ∧ (animState 1 [0x00#8]).cfgVariant = 2#2 := by decide

theorem yellowI_valid : TextValid yellowI := by
  intro i hi
  have h0 : i = 0 := by
    have : yellowI.phraseLen = 1 := by decide
    omega
  subst h0
  exact ⟨by decide +kernel, by decide +kernel, glyph_of (by decide +kernel)⟩

/-- "I" in Yellow under GATED (total 24). -/
theorem witness_QueriesOfValidText :
    yellowI.cfgVariant = 0#2 ∧ TextValid yellowI ∧
      24 = (match yellowI.params.textTotalRule with
        | .gated => (textStream yellowI).length
        | .perCharX3 => 3 * ((List.range yellowI.phraseLen).map fun i => (span yellowI i).length).sum) :=
  ⟨by decide, yellowI_valid, by decide +kernel⟩

theorem witness_PacketCountIsAtLeastOne : plan (imageState 0 []) = .ok (.image, 0) := by rfl

/-- Two states that differ in RESULT, and QPAD completes from both. -/
theorem witness_QueriesDependOnlyOnThePayload :
    SamePayload State.reset { State.reset with result := 5#32 } ∧
      (∃ t, exec .qpad State.reset = .next t) ∧ ∃ t, exec .qpad { State.reset with result := 5#32 } = .next t :=
  ⟨⟨rfl, rfl, rfl, rfl, rfl, rfl, rfl, rfl, rfl, fun _ _ => rfl⟩, ⟨_, rfl⟩, ⟨_, rfl⟩⟩

theorem witness_ReservedVariantEndsInBadVariant : ({ State.reset with cfgVariant := 3#2 } : State).cfgVariant = 3#2 := by
  rfl

/-- E6, with a phrase of one character. -/
theorem witness_TextWithoutColoursEndsInNoColors :
    (textState [0x49#32] []).cfgVariant = 0#2 ∧ (textState [0x49#32] []).cfgColorsLen = 0#16 ∧
      (textState [0x49#32] []).cfgPhraseLen ≠ 0#16 ∧ Instr.gen 5 ≠ .qpad := by decide

/-- E7: "II" with the tags Red and 7; the first character passes, the second has no colour. -/
theorem witness_FirstBadCharacterDecidesTheScanError_color :
    let s := textState [0x49#32, 0x49#32] [0x01#8, 0x07#8]
    s.cfgVariant = 0#2 ∧ 0 < s.colorsLen ∧ 1 < s.phraseLen ∧ Instr.qtotal ≠ .qpad ∧
      (∀ j, j < 1 → (s.colorTag j).toNat ≤ 6 ∧ ∃ g, glyph s (s.charCode j) = .ok g) ∧ 6 < (s.colorTag 1).toNat := by
  refine ⟨by decide, by decide, by decide, by decide, fun j hj => ?_, by decide +kernel⟩
  have h0 : j = 0 := by omega
  subst h0
  exact ⟨by decide +kernel, glyph_of (by decide +kernel)⟩

/-- E8: custom mode with an empty list; the tag is the greatest legal one. -/
theorem witness_FirstBadCharacterDecidesTheScanError_charlist :
    let s : State := { textState [0x41#32] [0x06#8] with cfgCharlistLen := 0#16 }
    s.cfgVariant = 0#2 ∧ 0 < s.colorsLen ∧ 0 < s.phraseLen ∧ (s.colorTag 0).toNat ≤ 6 ∧ s.cfgCharset = 1#1 ∧
      s.cfgCharlistLen = 0#16 := by decide +kernel

/-- A table one byte short of the one slot it needs (as in E10), for a code the list holds and for an absent one. -/
theorem witness_FirstBadCharacterDecidesTheScanError_table :
    let s : State := { textState [0x49#32] [0x00#8] with cfgTableLen := 31#22 }
    let u : State := { textState [0x5A#32] [0x00#8] with cfgTableLen := 31#22 }
    (s.cfgVariant = 0#2 ∧ 0 < s.colorsLen ∧ 0 < s.phraseLen ∧ (s.colorTag 0).toNat ≤ 6 ∧ s.cfgCharset = 1#1 ∧
        0 < s.charlistLen ∧ s.listCode 0 = s.charCode 0 ∧ min s.cfgTableLen.toNat 2097152 < 32 * (0 + 1)) ∧
      u.cfgVariant = 0#2 ∧ 0 < u.colorsLen ∧ 0 < u.phraseLen ∧ (u.colorTag 0).toNat ≤ 6 ∧ u.cfgCharset = 1#1 ∧
        0 < u.charlistLen ∧ (∀ j, j < u.charlistLen → u.listCode j ≠ u.charCode 0) ∧
        min u.cfgTableLen.toNat 2097152 < 32 * (0 + 1) := by decide +kernel

/-- E9: the code 0x10000 in built-in mode. -/
theorem witness_FirstBadCharacterDecidesTheScanError_range :
    let s : State := { textState [0x10000#32] [0x00#8] with cfgCharset := 0#1 }
    s.cfgVariant = 0#2 ∧ 0 < s.colorsLen ∧ 0 < s.phraseLen ∧ (s.colorTag 0).toNat ≤ 6 ∧ s.cfgCharset = 0#1 ∧
      65536 ≤ (s.charCode 0).toNat := by decide +kernel

/-- E11: whole size 65536. -/
theorem witness_GenSizeErrorComesBeforeIndex :
    plan (imageState 65510 []) = .ok (.image, 65510) ∧ 65535 < 65510 + headerPadding .image := by
  exact ⟨rfl, by decide⟩

/-- V-I1: index 1 of a payload with one packet. -/
theorem witness_GenIndexOutOfRangeEndsInIndex :
    plan (imageState 0 []) = .ok (.image, 0) ∧ 0 + headerPadding .image ≤ 65535 ∧
      (0 + headerPadding .image + 127) / 128 ≤ 1 := by exact ⟨rfl, by decide, by decide⟩

/-- The frame of V-I1 (39 bytes) and a FRAME_BUF of 38. -/
theorem witness_GenOverlongFrameEndsInFrameOverflow :
    let s : State := { imageState 0 [] with params := { Config.defaultParams with frameBufBytes := 38 } }
    plan s = .ok (.image, 0) ∧ 0 + headerPadding .image ≤ 65535 ∧ 0 < packetCount (0 + headerPadding .image) ∧
      s.params.frameBufBytes < (packetFrame s .image 0 0).length := by
  exact ⟨rfl, by decide, by decide, by decide +kernel⟩

theorem witness_FrameOverflowIsUnreachableByDefault :
    plan (imageState 0 []) = .ok (.image, 0) ∧ 0 + headerPadding .image ≤ 65535 ∧
      0 < packetCount (0 + headerPadding .image) ∧ 275 ≤ (imageState 0 []).params.frameBufBytes ∧
      holdsNext (exec (.gen 0) (imageState 0 [])) (fun _ => true) = true := by
  exact ⟨rfl, by decide, by decide, by decide, by decide +kernel⟩

/-- V-I1, with a FRAME_BUF that the frame just fits. -/
theorem witness_GenCompletesWithThePacketFrame :
    let s : State := { imageState 0 [] with params := { Config.defaultParams with frameBufBytes := 39 } }
    plan s = .ok (.image, 0) ∧ 0 + headerPadding .image ≤ 65535 ∧ 0 < packetCount (0 + headerPadding .image) ∧
      (packetFrame s .image 0 0).length ≤ s.params.frameBufBytes := by
  exact ⟨rfl, by decide, by decide, by decide +kernel⟩

/-- V-I3: both indexes of an Image of 103 bytes. -/
theorem witness_GenOfImageWritesHeaderAndData :
    (imageState 103 []).cfgVariant = 1#2 ∧ (imageState 103 []).dataLen + 26 ≤ 65535 ∧
      128 * 0 < (imageState 103 []).dataLen + 26 ∧ 128 * 1 < (imageState 103 []).dataLen + 26 ∧
      275 ≤ (imageState 103 []).params.frameBufBytes := by decide

/-- V-A4: both indexes of an Animation of 102 bytes. -/
theorem witness_GenOfAnimationWritesHeaderAndData :
    let s : State := { animState 3 [] with cfgDataLen := 102#16 }
    s.cfgVariant = 2#2 ∧ s.dataLen + 27 ≤ 65535 ∧ 128 * 0 < s.dataLen + 27 ∧ 128 * 1 < s.dataLen + 27 ∧
      275 ≤ s.params.frameBufBytes := by decide

/-- V-T7: both indexes of "I" in Yellow. -/
theorem witness_GenOfTextWritesHeaderAndStream :
    yellowI.cfgVariant = 0#2 ∧ yellowI.params.textTotalRule = .gated ∧ TextValid yellowI ∧
      (textStream yellowI).length + 107 ≤ 65535 ∧ 128 * 0 < (textStream yellowI).length + 107 ∧
      128 * 1 < (textStream yellowI).length + 107 ∧ 275 ≤ yellowI.params.frameBufBytes :=
  ⟨by decide, by decide, yellowI_valid, by decide +kernel, by decide +kernel, by decide +kernel, by decide⟩

theorem witness_GenDependsOnlyOnIndexAndPayload :
    SamePayload State.reset { State.reset with result := 5#32 } ∧
      holdsNext (exec (.gen 0) State.reset) (fun _ => true) = true ∧
      holdsNext (exec (.gen 0) { State.reset with result := 5#32 }) (fun _ => true) = true :=
  ⟨⟨rfl, rfl, rfl, rfl, rfl, rfl, rfl, rfl, rfl, fun _ _ => rfl⟩, by decide +kernel, by decide +kernel⟩

theorem witness_PacketsReassembleTheLogicalStream : plan (imageState 103 []) = .ok (.image, 103) := by rfl

/-- Index 0 and index 1 of an Image of 103 bytes; the equality with 128 has both cases (102 and 101 bytes). -/
theorem witness_BodyLengthsFitThePacket :
    plan (imageState 103 []) = .ok (.image, 103) ∧ 0 < packetCount (103 + headerPadding .image) ∧
      1 < packetCount (103 + headerPadding .image) := by exact ⟨rfl, by decide, by decide⟩

/-- Counts of 1 and 2. -/
theorem witness_LastPacketCarriesTheRemainder :
    plan (imageState 102 []) = .ok (.image, 102) ∧ packetCount (102 + headerPadding .image) = 1 ∧
      plan (imageState 103 []) = .ok (.image, 103) ∧ 2 ≤ packetCount (103 + headerPadding .image) := by
  exact ⟨rfl, by decide, rfl, by decide⟩

theorem witness_FramesAreWellFormed :
    holdsNext (exec (.gen 0) (imageState 0 [])) (fun t => t.status.done) = true := by decide +kernel

theorem witness_FrameLengthCountsControlBytes :
    plan (imageState 0 []) = .ok (.image, 0) ∧ 0 + headerPadding .image ≤ 65535 ∧
      0 < packetCount (0 + headerPadding .image) ∧
      (packetFrame (imageState 0 []) .image 0 0).length ≤ (imageState 0 []).params.frameBufBytes := by
  exact ⟨rfl, by decide, by decide, by decide +kernel⟩

theorem witness_FrameUnescapesToItsSubpacket :
    holdsNext (exec (.gen 0) State.reset) (fun t => t.status.done) = true := by decide +kernel

/-- A blank glyph, and one whose first and last non-zero pairs are 0 and 15. -/
theorem witness_TrimKeepsFirstToLastNonzeroPair :
    let g : List Byte := [0x01#8] ++ zeros 30 ++ [0x01#8]
    ((zeros 32).length = 32 ∧ ∀ k, k < 16 → (zeros 32)[2 * k]? = some 0x00#8 ∧ (zeros 32)[2 * k + 1]? = some 0x00#8) ∧
      g.length = 32 ∧ 0 ≤ 15 ∧ 15 < 16 ∧
      (∀ k, k < 16 → (k < 0 ∨ 15 < k) → g[2 * k]? = some 0x00#8 ∧ g[2 * k + 1]? = some 0x00#8) ∧
      ¬(g[2 * 0]? = some 0x00#8 ∧ g[2 * 0 + 1]? = some 0x00#8) ∧
      ¬(g[2 * 15]? = some 0x00#8 ∧ g[2 * 15 + 1]? = some 0x00#8) := by decide +kernel

/-- The greatest legal tag. -/
theorem witness_GatedSpanFollowsTheChannelTable : ((textState [0x49#32] [0x06#8]).colorTag 0).toNat ≤ 6 := by
  decide +kernel

/-- An all-White phrase, and a second state with the same glyphs. -/
theorem witness_StreamLengthSumsGatedSpans :
    let s := textState [0x49#32] [0x00#8]
    let t := { s with cfgVariant := 1#2 }
    (∀ i, i < s.phraseLen → (s.colorTag i).toNat ≤ 6) ∧ (∀ i, i < s.phraseLen → s.colorTag i = 0x00#8) ∧
      t.phraseLen = s.phraseLen ∧ t.cfgCharset = s.cfgCharset ∧ t.charlistLen = s.charlistLen ∧
      t.cfgTableLen = s.cfgTableLen ∧
      ∀ a, a < frameBase → (a < colorBase ∨ phraseBase ≤ a) → t.byteAt a = s.byteAt a := by
  have h : ∀ i, i < (textState [0x49#32] [0x00#8]).phraseLen →
      (textState [0x49#32] [0x00#8]).colorTag i = 0x00#8 := by decide +kernel
  exact ⟨fun i hi => by rw [h i hi]; decide, h, rfl, rfl, rfl, rfl, fun _ _ _ => rfl⟩

/-- An empty list; a code that the list holds; a code that it does not hold. -/
theorem witness_CustomLookupUsesTheFirstMatchOrPositionZero :
    State.reset.charlistLen = 0 ∧ 0 < yellowI.charlistLen ∧
      (0 < yellowI.charlistLen ∧ yellowI.listCode 0 = 0x49#32 ∧ ∀ j, j < 0 → yellowI.listCode j ≠ 0x49#32) ∧
      (0 = 0 ∧ ∀ j, j < yellowI.charlistLen → yellowI.listCode j ≠ 0x5A#32) := by decide +kernel

/-- The two sides of the bound 65536. -/
theorem witness_BuiltinLookupReadsTheRomSlot :
    (0xFFFF#32).toNat < 65536 ∧ 65536 ≤ (0x10000#32).toNat := by decide

/-- CMD, the last CFG register, and the first and last entries of the payload windows. -/
theorem witness_WritesWhileBusyAreDropped :
    (running State.reset 0x40000000#32 1).busy = true ∧
      0x00 ∈ [0x00, 0x20, 0x24, 0x28, 0x2C, 0x30, 0x34, 0x38, 0x3C] ∧
      0x3C ∈ [0x00, 0x20, 0x24, 0x28, 0x2C, 0x30, 0x34, 0x38, 0x3C] ∧
      (0x100000 ≤ 0x17FFFC ∧ 0x17FFFC < 0x180000 ∧ 0x17FFFC % 4 = 0) ∧ (0x010000 ≤ 0x02FFFF ∧ 0x02FFFF < 0x030000) ∧
      (0x200000 ≤ 0x3FFFFF ∧ 0x3FFFFF < 0x400000) := by
  refine ⟨rfl, ?_, ?_, ?_, ?_, ?_⟩ <;> decide

/-- The first read-only offset, the first address after each window, GLYPH_ROM and FRAME_BUF, a misaligned 32-bit access,
and wrong widths. -/
theorem witness_IgnoredWritesChangeNothing :
    (0x04 ≤ 0x04 ∧ 0x04 < 0x20) ∧ (0x40 ≤ 0x40 ∧ 0x40 < 0x010000) ∧ (0x030000 ≤ 0x030000 ∧ 0x030000 < 0x100000) ∧
      (0x180000 ≤ 0x180000 ∧ 0x180000 < 0x200000) ∧ 0x400000 ≤ 0x400000 ∧ 0x3F % 4 ≠ 0 ∧ Width.w8 ≠ .w32 ∧ 0xFF < 0x100 ∧
      Width.w32 ≠ .w8 ∧ (0x010000 ≤ 0x010000 ∧ 0x010000 < 0x030000) := by decide

/-- An idle state, the first and last CFG offsets, and CMD as another register. -/
theorem witness_CfgRegistersStoreTheirUsedBits :
    State.reset.busy = false ∧
      (0x20, 2) ∈ [(0x20, 2), (0x24, 16), (0x28, 8), (0x2C, 16), (0x30, 16), (0x34, 1), (0x38, 16), (0x3C, 22)] ∧
      (0x3C, 22) ∈ [(0x20, 2), (0x24, 16), (0x28, 8), (0x2C, 16), (0x30, 16), (0x34, 1), (0x38, 16), (0x3C, 22)] ∧
      0x00 < 0x100 ∧ 0x00 ≠ 0x20 ∧ 0x00 % 4 = 0 := by decide

theorem witness_MemoryEntriesReadBackWhatWasWritten :
    State.reset.busy = false ∧ (0x010000 ≤ 0x010000 ∧ 0x010000 < 0x030000) ∧
      (0x200000 ≤ 0x3FFFFF ∧ 0x3FFFFF < 0x400000) ∧ (0x100000 ≤ 0x100000 ∧ 0x100000 < 0x180000 ∧ 0x100000 % 4 = 0) := by
  refine ⟨rfl, ?_, ?_, ?_⟩ <;> decide

/-- Reserved addresses next to the windows, reserved register offsets, the ends of the windows, an idle state, and both ends of
FRAME_BUF. -/
theorem witness_HostReadsHaveNoSideEffect :
    0x100 % 4 = 0 ∧ (0x100 ≤ 0x100 ∧ 0x100 < 0x010000) ∧ 0x030000 % 4 = 0 ∧ 0x600114 % 4 = 0 ∧
      0x600000 + State.reset.params.frameBufBytes ≤ 0x600114 ∧ (0x1C % 4 = 0 ∧ 0x14 ≤ 0x1C ∧ 0x1C < 0x20) ∧
      (0xFC % 4 = 0 ∧ 0x40 ≤ 0xFC ∧ 0xFC < 0x100) ∧ (0x200000 ≤ 0x5FFFFF ∧ 0x5FFFFF < 0x600000) ∧
      (0x100000 ≤ 0x17FFFC ∧ 0x17FFFC < 0x180000 ∧ 0x17FFFC % 4 = 0) ∧ State.reset.busy = false ∧
      (0x600000 ≤ 0x600000 ∧ 0x600112 < 0x600000 + State.reset.params.frameBufBytes) := by decide

/-- One access for each clause; the last byte of FRAME_BUF in a wrong width, and while a command runs. -/
theorem witness_UnspecifiedReadsAreFreshDraws :
    (running State.reset 0x40000000#32 1).busy = true ∧ 0x03 % 4 ≠ 0 ∧ Width.w16 ≠ .w32 ∧ 0x17FFFF < 0x180000 ∧
      Width.w16 ≠ .w8 ∧
      (0x600000 ≤ 0x600112 ∧ 0x600112 < 0x600000 + (running State.reset 0x40000000#32 1).params.frameBufBytes) := by
  decide

/-- A step from a state in which nothing happens leaves it. -/
theorem test_idle_step : step State.reset = .next State.reset := by rfl

end Sys2Proof.Tests
end

section
/-! PROOF. The life of a command in flight (00_scope.md R12, 20_memory.md R89, R90): a step of latency keeps the word and
the payload unless the host resets, so the command ends, and it completes on the payload it was issued on. -/

namespace Sys2Proof.Machine

/-! A run, one step at a time. -/

theorem run_zero (s : State) : Host.Core.run core 0 s = .next s := rfl

theorem run_succ_of_step {s t : State} (h : step s = .next t) (k : Nat) :
    Host.Core.run core (k + 1) s = Host.Core.run core k t := by
  have hcore : core.step s = .next t := h
  simp only [Host.Core.run, hcore]

/-- A step of a due command is the completion of its word (10_state.md R60). -/
theorem step_of_due {s : State} {w : Word} (h : s.inflight = some { word := w, remaining := 0 }) :
    step s = runWord w s := by
  simp only [step, turn, h]

theorem runWord_of_decode {w : Word} {i : Instr} (h : decode w = .ok i) (s : State) : runWord w s = exec i s := by
  simp only [runWord, h]

/-- Any way a command completes leaves the block idle (60_exceptions.md R300, R316). -/
theorem Completion.inflight {s t : State} (h : Completion s t) : t.inflight = none := by
  cases h <;> rfl

/-- A due command ends in the next step, whether its word is legal or not. -/
theorem step_of_due_ends {s : State} {w : Word} (h : s.inflight = some { word := w, remaining := 0 }) :
    ∃ t, step s = .next t ∧ t.inflight = none := by
  obtain ⟨t, hrun, hcomp⟩ := runWord_completes w s
  exact ⟨t, (step_of_due h).trans hrun, hcomp.inflight⟩

/-- A run of one step from a due command is the command's meaning (30_encoding.md R114). -/
theorem run_one_of_due {s : State} {w : Word} {i : Instr} (h : s.inflight = some { word := w, remaining := 0 })
    (hdec : decode w = .ok i) : Host.Core.run core 1 s = exec i s := by
  have hstep : step s = exec i s := (step_of_due h).trans (runWord_of_decode hdec s)
  obtain ⟨t, hexec, -⟩ := exec_completes i s
  exact (run_succ_of_step (hstep.trans hexec) 0).trans hexec.symm

/-! What the host can do to a command in flight. -/

section
variable {s : State} {c : Option InFlight} {f : Status} {pend : List HostAction} {log : List Word} {lat : List Nat}
  {dr : Nat}

/-- The payload binding holds nothing of the command in flight, the flags or the host's bookkeeping (41_chunker.md R181). -/
theorem samePayload_of_port_change :
    SamePayload s
      { s with inflight := c, status := f, pending := pend, readLog := log, latencies := lat, draws := dr } :=
  ⟨rfl, rfl, rfl, rfl, rfl, rfl, rfl, rfl, rfl, fun _ _ => rfl⟩

/-- The frame holds nothing of the command in flight, the flags or the host's bookkeeping (10_state.md R43, R59). -/
theorem sameFrame_of_port_change :
    SameFrame s
      { s with inflight := c, status := f, pending := pend, readLog := log, latencies := lat, draws := dr } :=
  ⟨rfl, fun _ _ => rfl⟩

end

/-- The payload binding and the frame are as before, and the host has taken at most one action. -/
structure KeepsPayload (s t : State) : Prop where
  payload : SamePayload s t
  frame : SameFrame s t
  pending : t.pending = s.pending.tail ∨ t.pending = s.pending

/-- What the host can do in the next `k` steps was among what it could do in the `k + 1` steps before. -/
theorem KeepsPayload.take_subset {s t : State} (h : KeepsPayload s t) (k : Nat) :
    t.pending.take k ⊆ s.pending.take (k + 1) := by
  rcases h.pending with htail | hsame
  · rw [htail]
    cases s.pending <;> simp
  · rw [hsame]
    exact List.take_subset_take_left _ (Nat.le_succ k)

/-- While a command is in flight a host turn either is the reset event, which abandons it (70_reset_and_hazards.md R341), or
leaves it and its payload as they were: writes are dropped (20_memory.md R90) and reads have no side effect. -/
theorem HostMove.of_busy {s t : State} (h : HostMove s t) (hbusy : s.busy = true) :
    (s.pending.head? = some .reset ∧ t.inflight = none) ∨ (t.inflight = s.inflight ∧ KeepsPayload s t) := by
  cases h with
  | quiet pend log dr hpend =>
    exact .inr ⟨rfl, samePayload_of_port_change, sameFrame_of_port_change, hpend.imp_right And.right⟩
  | drop pend width addr v hpend =>
    exact .inr ⟨rfl, samePayload_of_port_change, sameFrame_of_port_change, .inl (by rw [hpend]; rfl)⟩
  | issue _ _ _ _ _ _ idle => simp [hbusy] at idle
  | store _ _ _ _ _ _ idle => simp [hbusy] at idle
  | byte _ _ _ _ _ idle => simp [hbusy] at idle
  | word _ _ _ _ _ idle => simp [hbusy] at idle
  | reset pend hpend => exact .inl ⟨by rw [hpend]; rfl, rfl⟩

/-- A step of latency: one step less remains, and the host has its turn (00_scope.md R12, 92_eei_decisions.md D2). -/
theorem step_of_running {s : State} {w : Word} {n : Nat}
    (h : s.inflight = some { word := w, remaining := n + 1 }) :
    step s = .next ({ s with inflight := some { word := w, remaining := n } } : State).hostTurn := by
  simp only [step, turn, h]

/-- A step of latency either is a reset, which ends the command, or keeps the command's word and payload and leaves one step
less. -/
theorem step_of_running_cases {s : State} {w : Word} {n : Nat}
    (h : s.inflight = some { word := w, remaining := n + 1 }) :
    ∃ t, step s = .next t ∧
      ((s.pending.head? = some .reset ∧ t.inflight = none) ∨
        (t.inflight = some { word := w, remaining := n } ∧ KeepsPayload s t)) := by
  have hmove := State.hostTurn_move { s with inflight := some { word := w, remaining := n } }
  refine ⟨_, step_of_running h, (hmove.of_busy rfl).imp_right ?_⟩
  rintro ⟨hfly, hpay, hframe, hpend⟩
  exact ⟨hfly, samePayload_of_port_change.trans hpay, sameFrame_of_port_change.trans hframe, hpend⟩

/-! The two statements. -/

/-- Settles O10, by induction on the steps of latency left: each keeps the payload, since none is a reset. -/
theorem commandCompletesOnThePayloadOfItsIssue : Obligations.CommandCompletesOnThePayloadOfItsIssue := by
  unfold Obligations.CommandCompletesOnThePayloadOfItsIssue
  intro s w i n hfly hdec hreset
  induction n generalizing s with
  | zero => exact ⟨s, run_zero s, hfly, .refl s, .refl s, run_one_of_due hfly hdec⟩
  | succ n ih =>
    obtain ⟨t, hstep, ⟨hhead, -⟩ | ⟨hflyT, hkeep⟩⟩ := step_of_running_cases hfly
    · have hmem : HostAction.reset ∈ s.pending.take (n + 1) :=
        List.mem_of_mem_head? (by simpa [List.head?_take] using hhead)
      exact absurd rfl (hreset _ hmem)
    · obtain ⟨u, hrun, hdue, hpay, hframe, hexec⟩ :=
        ih t hflyT fun a ha => hreset a (hkeep.take_subset n ha)
      exact ⟨u, (run_succ_of_step hstep n).trans hrun, hdue, hkeep.payload.trans hpay, hkeep.frame.trans hframe,
        (run_succ_of_step hstep (n + 1)).trans hexec⟩

/-- Settles O11, by induction on the steps of latency left: each leaves one less, or is a reset, which ends the command at
once. -/
theorem everyAcceptedCommandEnds : Obligations.EveryAcceptedCommandEnds := by
  unfold Obligations.EveryAcceptedCommandEnds
  rintro s ⟨w, n⟩ hfly
  induction n generalizing s with
  | zero =>
    obtain ⟨t, hstep, hidle⟩ := step_of_due_ends hfly
    exact ⟨1, le_refl 1, t, run_succ_of_step hstep 0, t.busy_eq_false.mpr hidle⟩
  | succ n ih =>
    obtain ⟨t, hstep, ⟨-, hidle⟩ | ⟨hflyT, -⟩⟩ := step_of_running_cases hfly
    · exact ⟨1, Nat.le_add_left 1 (n + 1), t, run_succ_of_step hstep 0, t.busy_eq_false.mpr hidle⟩
    · obtain ⟨k, hk, u, hrun, hidle⟩ := ih t hflyT
      exact ⟨k + 1, Nat.succ_le_succ hk, u, (run_succ_of_step hstep k).trans hrun, hidle⟩

end Sys2Proof.Machine
end

section
/-! PROOF. The host port (10_state.md R33, R34; 20_memory.md R81 to R91): what a read and a write return and leave at each
register, each window and each reserved range, and which accesses are not performed. -/

namespace Sys2Proof.Machine

/-! The entry size of the windows (20_memory.md R81), and alignment. -/

section
variable {p : Params} {a : Nat}

theorem windowAt_w32 (h : a < 0x100 ∨ (0x100000 ≤ a ∧ a < 0x180000)) :
    ∃ win, windowAt p a = some win ∧ win.entry = .w32 := by
  rcases h with hreg | hword
  · exact ⟨_, windowAt_registers hreg, rfl⟩
  · rcases windowAt_wordMem (p := p) hword with hw | hw <;> exact ⟨_, hw, rfl⟩

theorem windowAt_w8 (h : (0x010000 ≤ a ∧ a < 0x030000) ∨ (0x200000 ≤ a ∧ a < 0x600000 + p.frameBufBytes)) :
    ∃ win, windowAt p a = some win ∧ win.entry = .w8 := by
  by_cases hframe : 0x600000 ≤ a
  · exact ⟨_, windowAt_frame (by omega), rfl⟩
  by_cases hrom : 0x400000 ≤ a
  · exact ⟨_, windowAt_rom (by omega), rfl⟩
  rcases windowAt_byteMem (p := p) (a := a) (by omega) with hw | hw | hw <;> exact ⟨_, hw, rfl⟩

end

theorem misaligned_w8 (a : Nat) : misaligned .w8 a = false := rfl

theorem misaligned_eq_false {width : Width} {a : Nat} (h : width = .w32 → a % 4 = 0) : misaligned width a = false := by
  cases width with
  | w8 => rfl
  | w16 => rfl
  | w32 => exact (misaligned_w32 a).mpr (h rfl)

/-! Reads (20_memory.md R81, R85, R87, R91). -/

section
variable {s : State} {width : Width} {a : Nat}

/-- A reserved address reads 0 (20_memory.md R81). -/
theorem State.hostRead_reserved (hm : misaligned width a = false) (hw : windowAt s.params a = none) :
    s.hostRead width a = (0#32, s) := by
  simp [State.hostRead, hm, hw]

theorem State.hostRead_misaligned (h : a % 4 ≠ 0) : s.hostRead .w32 a = s.draw := by
  simp [State.hostRead, misaligned, h]

/-- A read of another width than the window's entry is not performed (20_memory.md R85). -/
theorem State.hostRead_wrongWidth {win : Window} (hw : windowAt s.params a = some win) (he : win.entry ≠ width) :
    s.hostRead width a = s.draw := by
  simp [State.hostRead, hw, he]

/-- A reserved register offset reads 0 (10_state.md R34). -/
theorem State.hostRead_reservedReg (h4 : a % 4 = 0) (h : a < 0x100) (hreg : regAt a = none) :
    s.hostRead .w32 a = (0#32, s) := by
  rw [State.hostRead_window ((misaligned_w32 a).mpr h4) (windowAt_registers h) rfl]
  simp only [State.readEntry, hreg]

/-- The bytes of the payload memories and GLYPH_ROM read their values, busy or not (20_memory.md R87, R91). -/
theorem State.hostRead_byte (h : (0x010000 ≤ a ∧ a < 0x030000) ∨ (0x200000 ≤ a ∧ a < 0x600000)) :
    s.hostRead .w8 a = ((s.byteAt a).setWidth 32, s) := by
  by_cases hrom : 0x400000 ≤ a
  · exact State.hostRead_window (misaligned_w8 a) (windowAt_rom (by omega)) rfl
  rcases windowAt_byteMem (p := s.params) (a := a) (by omega) with hw | hw | hw <;>
    exact State.hostRead_window (misaligned_w8 a) hw rfl

theorem State.hostRead_word (h : 0x100000 ≤ a ∧ a < 0x180000) (h4 : a % 4 = 0) :
    s.hostRead .w32 a = (s.wordAt a, s) := by
  rcases windowAt_wordMem (p := s.params) h with hw | hw <;>
    exact State.hostRead_window ((misaligned_w32 a).mpr h4) hw rfl

/-- A byte of FRAME_BUF reads its value while idle, and the low bits of a draw while BUSY (20_memory.md R91). -/
theorem State.hostRead_frame (h : 0x600000 ≤ a ∧ a < 0x600000 + s.params.frameBufBytes) :
    s.hostRead .w8 a =
      if s.busy then ((lowByte s.draw.1).setWidth 32, s.draw.2) else ((s.byteAt a).setWidth 32, s) :=
  State.hostRead_window (misaligned_w8 a) (windowAt_frame h) rfl

end

/-! Reads of the registers (10_state.md R33, R34). -/

theorem State.readReg_of_idle {s : State} (h : s.busy = false) (r : Reg) : s.readReg r = (s.regValue r, s) := by
  simp [State.readReg, h]

/-- While BUSY only RESULT, FRAME_LEN and ERR_INFO do not read their values (20_memory.md R91). -/
theorem State.readReg_of_stable (s : State) {r : Reg} (h : r ≠ .result ∧ r ≠ .frameLen ∧ r ≠ .errInfo) :
    s.readReg r = (s.regValue r, s) := by
  cases hb : s.busy with
  | false => exact State.readReg_of_idle hb r
  | true => cases r <;> simp_all [State.readReg]

theorem State.hostRead_stableReg (s : State) {r : Reg} (h : r ≠ .result ∧ r ≠ .frameLen ∧ r ≠ .errInfo) :
    s.hostRead .w32 r.offset = (s.regValue r, s) :=
  (s.hostRead_reg r).trans (s.readReg_of_stable h)

theorem State.hostRead_idleReg {s : State} (h : s.busy = false) (r : Reg) :
    s.hostRead .w32 r.offset = (s.regValue r, s) :=
  (s.hostRead_reg r).trans (State.readReg_of_idle h r)

/-- CMD reads 0, busy or not (10_state.md R35). -/
theorem State.hostRead_cmd (s : State) : s.hostRead .w32 0x00 = (0#32, s) :=
  s.hostRead_stableReg (r := .cmd) (by decide)

/-- RESULT and ERR_INFO draw their value while BUSY (20_memory.md R91). -/
theorem State.hostRead_busyReg {s : State} (h : s.busy = true) :
    s.hostRead .w32 0x08 = s.draw ∧ s.hostRead .w32 0x10 = s.draw :=
  ⟨(s.hostRead_reg .result).trans (if_pos h), (s.hostRead_reg .errInfo).trans (if_pos h)⟩

/-- FRAME_LEN while BUSY keeps the used bits of a draw (20_memory.md R91, 10_state.md R34). -/
theorem State.hostRead_busyFrameLen {s : State} (h : s.busy = true) :
    s.hostRead .w32 0x0C = ((s.draw.1.setWidth 9).setWidth 32, s.draw.2) :=
  (s.hostRead_reg .frameLen).trans (if_pos h)

/-- Settles O58: which window or register an address lies in decides the value, and no case writes the state. -/
theorem hostReadsHaveNoSideEffect : Obligations.HostReadsHaveNoSideEffect := by
  unfold Obligations.HostReadsHaveNoSideEffect
  intro s width a
  have reg {r : Reg} := s.hostRead_stableReg (r := r)
  refine ⟨s.hostRead_state width a, fun h4 h => State.hostRead_reserved (misaligned_eq_false h4) (windowAt_reserved h), ?_,
    reg (r := .status) (by decide), reg (r := .cfgVariant) (by decide), reg (r := .cfgDataLen) (by decide),
    reg (r := .cfgFrameCount) (by decide), reg (r := .cfgPhraseLen) (by decide), reg (r := .cfgColorsLen) (by decide),
    reg (r := .cfgCharset) (by decide), reg (r := .cfgCharlistLen) (by decide), reg (r := .cfgTableLen) (by decide),
    State.hostRead_byte, fun ⟨hlo, hhi, h4⟩ => State.hostRead_word ⟨hlo, hhi⟩ h4,
    fun hidle => ⟨State.hostRead_idleReg hidle .result, State.hostRead_idleReg hidle .frameLen,
      State.hostRead_idleReg hidle .errInfo, fun h => ?_⟩⟩
  · rintro h4 (rfl | h)
    · exact s.hostRead_cmd
    · exact State.hostRead_reservedReg h4 (by omega) (regAt_reserved (by omega))
  · rw [State.hostRead_frame h, hidle]
    rfl

/-- Settles O59: an access that is not performed, and a read of what a running command writes, draw the value. -/
theorem unspecifiedReadsAreFreshDraws : Obligations.UnspecifiedReadsAreFreshDraws := by
  unfold Obligations.UnspecifiedReadsAreFreshDraws
  intro s width a
  refine ⟨?_, State.hostRead_busyFrameLen, fun hbusy h => ?_⟩
  · rintro (⟨hbusy, rfl, rfl | rfl⟩ | ⟨rfl, h4⟩ | ⟨hwidth, h⟩ | ⟨hwidth, h⟩)
    · exact (State.hostRead_busyReg hbusy).1
    · exact (State.hostRead_busyReg hbusy).2
    · exact State.hostRead_misaligned h4
    · obtain ⟨win, hw, he⟩ := windowAt_w32 (p := s.params) h
      exact State.hostRead_wrongWidth hw (he ▸ hwidth.symm)
    · obtain ⟨win, hw, he⟩ := windowAt_w8 h
      exact State.hostRead_wrongWidth hw (he ▸ hwidth.symm)
  · rw [State.hostRead_frame h, hbusy]
    rfl

/-! Writes (10_state.md R34, 20_memory.md R81, R85, R90). -/

/-- A read-only register stores nothing (10_state.md R33). -/
theorem State.storeReg_of_readOnly (s : State) {r : Reg} (h : r.readOnly = true) (v : Word) : s.storeReg r v = s := by
  cases r <;> first | rfl | cases h

/-- A write outside the writable places is ignored, busy or not. -/
theorem State.hostWrite_of_not_writable (s : State) {width : Width} {a : Nat} (v : Word)
    (h : ¬ WritablePlace width a) : s.hostWrite width a v = s := by
  have hmove := s.hostWrite_move width a v
  generalize s.hostWrite width a v = t at hmove
  cases hmove with
  | ignored => rfl
  | drop place => exact absurd place h
  | issue hw ha => exact absurd (.inl ⟨hw, by omega, .inl ha⟩) h
  | store r hw ha =>
    cases hro : r.readOnly with
    | true => exact s.storeReg_of_readOnly hro v
    | false => exact absurd (hw ▸ ha ▸ Reg.offset_writable hro) h
  | byte hw ha => exact absurd (.inr ⟨hw, ha⟩) h
  | word hw ha => exact absurd (.inl ⟨hw, ha.2, .inr (.inr ha.1)⟩) h

/-- Settles O55: none of these places is writable. -/
theorem ignoredWritesChangeNothing : Obligations.IgnoredWritesChangeNothing := by
  unfold Obligations.IgnoredWritesChangeNothing
  intro s width a v h
  refine s.hostWrite_of_not_writable v ?_
  rintro (⟨rfl, h4, hplace⟩ | ⟨rfl, hplace⟩) <;> simp at h <;> omega

theorem State.hostWrite_reg (s : State) (r : Reg) (v : Word) : s.hostWrite .w32 r.offset v = s.writeReg r v := by
  have hm : misaligned .w32 r.offset = false := by cases r <;> rfl
  have hw : windowAt s.params r.offset = some .registers := windowAt_registers (by cases r <;> decide)
  simp [State.hostWrite, hm, hw, Window.entry, State.writeEntry, regAt_eq_some.mpr rfl]

/-! The CFG registers (10_state.md R45 to R52). -/

/-- The number of bits a CFG register uses; the other registers are none. -/
def Reg.cfgBits : Reg → Option Nat
  | .cfgVariant => some 2
  | .cfgDataLen => some 16
  | .cfgFrameCount => some 8
  | .cfgPhraseLen => some 16
  | .cfgColorsLen => some 16
  | .cfgCharset => some 1
  | .cfgCharlistLen => some 16
  | .cfgTableLen => some 22
  | _ => none

/-- The bits a register of `n` bits keeps of a word, as the host reads them (10_state.md R34). -/
theorem setWidth_usedBits (v : Word) (n : Nat) :
    (v.setWidth n).setWidth 32 = BitVec.ofNat 32 (v.toNat % 2 ^ n) :=
  BitVec.eq_of_toNat_eq (by simp)

section
variable {s : State} {r : Reg} {n : Nat}

/-- An idle write to a CFG register is a store. -/
theorem State.hostWrite_cfg (hidle : s.busy = false) (hr : r.cfgBits = some n) (v : Word) :
    s.hostWrite .w32 r.offset v = s.storeReg r v := by
  rw [State.hostWrite_reg, State.writeReg, hidle]
  cases r <;> first | rfl | cases hr

theorem State.regValue_storeReg (s : State) (hr : r.cfgBits = some n) (v : Word) :
    (s.storeReg r v).regValue r = BitVec.ofNat 32 (v.toNat % 2 ^ n) := by
  rw [← setWidth_usedBits]
  cases r <;> cases hr <;> rfl

theorem State.regValue_storeReg_of_ne (s : State) {q : Reg} (h : q ≠ r) (v : Word) :
    (s.storeReg r v).regValue q = s.regValue q := by
  cases r <;> cases q <;> first | rfl | exact absurd rfl h

/-- A store to a CFG register is seen at no other offset of the register window. -/
theorem State.hostRead_storeReg_of_ne (hidle : s.busy = false) (v : Word) {q : Nat} (hq : q < 0x100) (h4 : q % 4 = 0)
    (hne : q ≠ r.offset) : ((s.storeReg r v).hostRead .w32 q).1 = (s.hostRead .w32 q).1 := by
  have hidle' : (s.storeReg r v).busy = false := by simpa using hidle
  cases hreg : regAt q with
  | none => rw [State.hostRead_reservedReg h4 hq hreg, State.hostRead_reservedReg h4 hq hreg]
  | some x =>
    obtain rfl := regAt_eq_some.mp hreg
    rw [State.hostRead_idleReg hidle', State.hostRead_idleReg hidle]
    exact s.regValue_storeReg_of_ne (fun hx => hne (congrArg Reg.offset hx)) v

end

/-- Settles O56: an idle CFG write is a store of its register (State.hostWrite_cfg), which only that register reads back. -/
theorem cfgRegistersStoreTheirUsedBits : Obligations.CfgRegistersStoreTheirUsedBits := by
  unfold Obligations.CfgRegistersStoreTheirUsedBits
  intro s v hidle
  have store {r : Reg} {n : Nat} (hr : r.cfgBits = some n) := State.hostWrite_cfg hidle hr v
  refine ⟨store (r := .cfgVariant) rfl, store (r := .cfgDataLen) rfl, store (r := .cfgFrameCount) rfl,
    store (r := .cfgPhraseLen) rfl, store (r := .cfgColorsLen) rfl, store (r := .cfgCharset) rfl,
    store (r := .cfgCharlistLen) rfl, store (r := .cfgTableLen) rfl, fun p hp => ?_⟩
  obtain ⟨r, hoff, hbits⟩ : ∃ r : Reg, p.1 = r.offset ∧ r.cfgBits = some p.2 := by
    simp only [List.mem_cons, List.not_mem_nil, or_false] at hp
    rcases hp with rfl | rfl | rfl | rfl | rfl | rfl | rfl | rfl
    exacts [⟨.cfgVariant, rfl, rfl⟩, ⟨.cfgDataLen, rfl, rfl⟩, ⟨.cfgFrameCount, rfl, rfl⟩, ⟨.cfgPhraseLen, rfl, rfl⟩,
      ⟨.cfgColorsLen, rfl, rfl⟩, ⟨.cfgCharset, rfl, rfl⟩, ⟨.cfgCharlistLen, rfl, rfl⟩, ⟨.cfgTableLen, rfl, rfl⟩]
  rw [hoff, store hbits]
  refine ⟨?_, s.storeReg_mem r v, fun q hq hne h4 => State.hostRead_storeReg_of_ne hidle v hq h4 hne⟩
  rw [State.hostRead_idleReg (by simpa using hidle), State.regValue_storeReg s hbits]

end Sys2Proof.Machine
end

section
/-! PROOF. STATUS: the word the host reads, and the four events that write it (10_state.md R36 to R41, R61). A step's effect
on STATUS and BUSY is said once, and the statements about them are read off it. -/

namespace Sys2Proof.Machine

/-! The word. -/

theorem flagBit_eq (b : Bool) (position : Nat) : flagBit b position = b.toNat * 2 ^ position := by
  cases b <;> simp [flagBit]

/-- The sum that makes the STATUS word, as its flags one above the other. -/
theorem State.statusWord_eq_bits (s : State) :
    s.statusWord = BitVec.ofNat 32 (Nat.bit s.busy (Nat.bit s.status.done (Nat.bit s.status.err
      (Nat.bit s.status.faultSeen (Nat.bit s.status.overrun (2 ^ 3 * s.status.errcode.toNat)))))) := by
  simp only [State.statusWord, flagBit_eq, Nat.bit_val]
  congr 1
  omega

/-- Settles O60: the flags are bits 0 to 4, and above them stands ERRCODE, shifted by 3 more. -/
theorem statusWordHasTheStatedLayout : Obligations.StatusWordHasTheStatedLayout := by
  unfold Obligations.StatusWordHasTheStatedLayout
  intro s k
  have hcode : ∀ i, (2 ^ 3 * s.status.errcode.toNat).testBit i =
      (decide (3 ≤ i) && s.status.errcode.getLsbD (i - 3)) :=
    fun i => Nat.testBit_two_pow_mul ..
  rw [State.statusWord_eq_bits, BitVec.getLsbD_ofNat]
  generalize 2 ^ 3 * s.status.errcode.toNat = code at hcode ⊢
  match k with
  | 0 | 1 | 2 | 3 | 4 | 5 | 6 | 7 => simp [Nat.testBit_bit_succ, hcode]
  | j + 8 =>
    by_cases hj : j < 4
    · have hbits : j + 8 < 32 ∧ j + 8 ≤ 11 := by omega
      simp [Nat.testBit_bit_succ, hcode, hbits]
    · have hhigh : s.status.errcode.getLsbD j = false := BitVec.getLsbD_of_ge _ _ (by omega)
      simp [Nat.testBit_bit_succ, hcode, hhigh]

/-! The events. -/

/-- What a step can do to STATUS and BUSY (10_state.md R61). -/
inductive StatusEvent (s t : State) : Prop
  /-- Nothing. -/
  | kept (status : t.status = s.status) (busy : t.busy = s.busy)
  /-- The successful completion of the due command (60_exceptions.md R313). -/
  | succeeded (w : Word) (due : s.inflight = some { word := w, remaining := 0 }) (idle : t.inflight = none)
    (status : t.status = s.status.succeeded)
  /-- The error completion of the due command (60_exceptions.md R301). -/
  | failed (w : Word) (e : CmdError) (due : s.inflight = some { word := w, remaining := 0 }) (idle : t.inflight = none)
    (status : t.status = s.status.failed e)
  /-- The issue of a command by an idle block (10_state.md R35). -/
  | issued (w : Word) (rest : List HostAction) (action : s.pending = .write .w32 0x00#23 w :: rest)
    (idle : s.inflight = none) (busy : t.busy = true) (status : t.status = s.status.issued)
  /-- A write dropped because a command is in flight (10_state.md R40). -/
  | dropped (width : Width) (addr : BitVec 23) (v : Word) (rest : List HostAction)
    (action : s.pending = .write width addr v :: rest) (place : WritablePlace width addr.toNat) (before : s.busy = true)
    (after : t.busy = true) (status : t.status = s.status.overran)
  /-- The reset event (70_reset_and_hazards.md R340). -/
  | reset (rest : List HostAction) (action : s.pending = .reset :: rest) (status : t.status = State.reset.status)

/-- A host turn's event, told of any state with the same STATUS, BUSY and actions: a step counts the latency down first. -/
theorem HostMove.statusEvent {r s t : State} (h : HostMove r t) (status : r.status = s.status) (busy : r.busy = s.busy)
    (pending : r.pending = s.pending) : StatusEvent s t := by
  cases h with
  | quiet => exact .kept status busy
  | drop pend width addr v hp place hbusy =>
    exact .dropped width addr v pend (pending ▸ hp) place (busy ▸ hbusy) hbusy (congrArg Status.overran status)
  | issue pend w n lat dr hp idle =>
    exact .issued w pend (pending ▸ hp) (s.busy_eq_false.mp (busy ▸ idle)) rfl (congrArg Status.issued status)
  | store => exact .kept (by simpa using status) (by simpa [State.busy] using busy)
  | byte => exact .kept status busy
  | word => exact .kept status busy
  | reset pend hp => exact .reset pend (pending ▸ hp) rfl

theorem Completion.statusEvent {s t : State} (h : Completion s t) {w : Word}
    (due : s.inflight = some { word := w, remaining := 0 }) : StatusEvent s t := by
  cases h with
  | queryError r => exact .failed w r.error due rfl rfl
  | genError r => exact .failed w r.error due rfl rfl
  | query => exact .succeeded w due rfl rfl
  | gen => exact .succeeded w due rfl rfl

theorem step_statusEvent {s t : State} (h : step s = .next t) : StatusEvent s t := by
  obtain ⟨-, hmove⟩ | ⟨w, n, hfly, hmove⟩ | ⟨w, hdue, hcomp⟩ := step_cases h
  · exact hmove.statusEvent rfl rfl rfl
  · exact hmove.statusEvent rfl (by simp [State.busy, hfly]) rfl
  · exact hcomp.statusEvent hdue

/-- Settles O16: of the events only the reset clears a sticky flag, and the one that sets ERR sets FAULT_SEEN with it. -/
theorem stickyFlagsClearOnlyByReset : Obligations.StickyFlagsClearOnlyByReset := by
  unfold Obligations.StickyFlagsClearOnlyByReset
  intro s t hstep
  cases step_statusEvent hstep with
  | kept status => simp +contextual [status]
  | succeeded _ _ _ status => simp +contextual [status]
  | failed _ _ _ _ status => simp +contextual [status]
  | issued _ _ _ _ _ status => simp +contextual [status]
  | dropped _ _ _ _ _ _ _ _ status => simp +contextual [status]
  | reset rest hp status =>
    exact ⟨fun _ => .inr ⟨rest, hp⟩, fun _ => .inr ⟨rest, hp⟩, by simp [status, State.reset]⟩

/-- Settles O17: the events of a step are these four, or nothing changed. -/
theorem statusIsWrittenOnlyByFourEvents : Obligations.StatusIsWrittenOnlyByFourEvents := by
  unfold Obligations.StatusIsWrittenOnlyByFourEvents
  intro s t hstep hchange
  cases step_statusEvent hstep with
  | kept status busy => simp [status, busy] at hchange
  | succeeded w due idle status => exact .inl ⟨⟨w, due⟩, idle, by simp [status]⟩
  | failed w e due idle status => exact .inl ⟨⟨w, due⟩, idle, by simp [status]⟩
  | issued w rest hp idle busy status => exact .inr (.inl ⟨idle, busy, ⟨w, rest, hp⟩, status⟩)
  | dropped width addr v rest hp place before after status =>
    exact .inr (.inr (.inl ⟨before, after, status, width, addr, v, rest, hp, place⟩))
  | reset rest hp => exact .inr (.inr (.inr ⟨rest, hp⟩))

/-- Settles O18: of the four events that change BUSY or STATUS, only the completion and the reset can leave BUSY = 0. -/
theorem busyEndsOnlyByCompletionOrReset : Obligations.BusyEndsOnlyByCompletionOrReset := by
  unfold Obligations.BusyEndsOnlyByCompletionOrReset
  intro s t hstep hbusy hidle
  obtain ⟨due, -, flags⟩ | ⟨-, hbusyT, -⟩ | ⟨-, hbusyT, -⟩ | hreset :=
    statusIsWrittenOnlyByFourEvents s t hstep (.inr (by simp [hbusy, hidle]))
  · exact .inl ⟨due, flags⟩
  · simp [hidle] at hbusyT
  · simp [hidle] at hbusyT
  · exact .inr hreset

end Sys2Proof.Machine
end

section
/-! PROOF. A command from its CMD write to its step (10_state.md R35, R60; 30_encoding.md R114). -/

namespace Sys2Proof.Machine

/-- Settles O6: the due word's step is its meaning (step_of_due), and a decoded word's meaning is exec of its command. -/
theorem stepRunsDecodedInstruction : Obligations.StepRunsDecodedInstruction := by
  unfold Obligations.StepRunsDecodedInstruction
  intro s w i hdue hdec
  exact (step_of_due hdue).trans (runWord_of_decode hdec s)

theorem step_of_idle {s : State} (h : s.inflight = none) : step s = .next s.hostTurn := by
  simp only [step, turn, h]

theorem State.hostTurn_of_pending {s : State} {a : HostAction} {rest : List HostAction} (h : s.pending = a :: rest) :
    s.hostTurn = ({ s with pending := rest } : State).act a := by
  simp only [State.hostTurn, h]

/-- A write to CMD while idle issues its word (10_state.md R35). -/
theorem State.act_cmdWrite {s : State} (hidle : s.inflight = none) (w : Word) :
    s.act (.write .w32 0x00#23 w) = s.issue w :=
  calc
    s.act (.write .w32 0x00#23 w) = s.writeReg .cmd w := s.hostWrite_reg .cmd w
    _ = s.issue w := by simp [State.writeReg, Reg.readOnly, s.busy_eq_false.mpr hidle]

theorem step_of_cmdWrite {s : State} {w : Word} {rest : List HostAction} (hidle : s.inflight = none)
    (hp : s.pending = .write .w32 0x00#23 w :: rest) :
    step s = .next (({ s with pending := rest } : State).issue w) := by
  rw [step_of_idle hidle, State.hostTurn_of_pending hp]
  exact congrArg _ (State.act_cmdWrite (s := { s with pending := rest }) hidle w)

theorem State.issue_of_illegal {w : Word} {e : IllegalWord} (h : decode w = .error e) (s : State) :
    s.issue w = { s with inflight := some { word := w, remaining := 0 }, status := s.status.issued } := by
  simp only [State.issue, h]

theorem runWord_of_illegal {w : Word} {e : IllegalWord} (h : decode w = .error e) (s : State) :
    runWord w s = .next (s.raise false { error := .illegalCmd, info := w.toNat }) := by
  simp only [runWord, h]

/-- Settles O9: the issue sets the word in flight and clears three flags, and touches nothing of the payload or the frame. -/
theorem cmdWriteIssuesTheCommand : Obligations.CmdWriteIssuesTheCommand := by
  unfold Obligations.CmdWriteIssuesTheCommand
  intro s w rest hidle hp
  obtain ⟨n, lat, dr, hissue⟩ := State.issue_spec { s with pending := rest } w
  refine ⟨_, n, (step_of_cmdWrite hidle hp).trans (congrArg _ hissue), rfl, rfl, rfl, samePayload_of_port_change,
    sameFrame_of_port_change, rfl, rfl, rfl, rfl, ?_⟩
  rw [State.hostRead_cmd]

/-- Settles O8: an illegal word is issued with no latency, so its error completion is the next step; that of a word that is no
GEN leaves the frame. -/
theorem illegalWordCompletesAtOnceAndLeavesFrame : Obligations.IllegalWordCompletesAtOnceAndLeavesFrame := by
  unfold Obligations.IllegalWordCompletesAtOnceAndLeavesFrame
  intro s w e rest hidle hp hdec
  have hissue := State.issue_of_illegal hdec { s with pending := rest }
  have hissued : SameFrame s (({ s with pending := rest } : State).issue w) := by
    rw [hissue]
    exact sameFrame_of_port_change
  obtain ⟨-, hraise⟩ := State.raise_query_spec (({ s with pending := rest } : State).issue w)
    { error := .illegalCmd, info := w.toNat }
  refine ⟨_, _, step_of_cmdWrite hidle hp, ?_, (step_of_due ?_).trans (runWord_of_illegal hdec _), rfl, ?_,
    hissued.trans hraise⟩
  · rw [hissue]; rfl
  · rw [hissue]
  · rw [State.raise_query_pending, hissue]

end Sys2Proof.Machine
end

section
/-! PROOF. The length of a frame (41_chunker.md R184 to R189, 43_framing_engine.md R264 to R272): a packet's body has at most
128 bytes, and its frame at most 275, since the lead byte of a sub-packet is never escaped. -/

namespace Sys2Proof.Machine

@[simp] theorem length_zeros (n : Nat) : (zeros n).length = n := List.length_replicate

@[simp] theorem length_be16 (v : Nat) : (be16 v).length = 2 := rfl

@[simp] theorem length_memRead (s : State) (base addr n : Nat) : (s.memRead base addr n).length = n := by
  simp [State.memRead]

theorem length_slice (l : List Byte) (i j : Nat) : (slice l i j).length = min (j - i) (l.length - i) := by
  simp [slice]

/-! The body of a packet. -/

/-- The visible header and the reserved bytes fill the header padding exactly (40_planner.md R150, 41_chunker.md R189). -/
@[simp] theorem length_header (s : State) (v : Variant) (total : Nat) : (header s v total).length = headerPadding v := by
  unfold header
  cases s.params.hdrLayout <;> cases v <;> rfl

/-- The loop that reads a window of the Text stream stops at exactly the bytes asked for (42_glyph_renderer.md R233, R234). -/
theorem length_windowLoop (spans : List (List Byte)) (skip m : Nat) (out : List Byte) (h : out.length ≤ m) :
    (windowLoop spans skip m out).length = m := by
  induction spans generalizing skip out with
  | nil => simp [windowLoop, h]
  | cons sp rest ih =>
    rw [windowLoop]
    dsimp only
    split_ifs with hskip hfull
    · exact ih _ out h
    · exact hfull
    · refine ih 0 _ ?_
      rw [List.length_append, length_slice]
      omega

@[simp] theorem length_content (s : State) (v : Variant) (a m : Nat) : (content s v a m).length = m := by
  cases v with
  | text => exact length_windowLoop _ a m [] (Nat.zero_le m)
  | image => exact length_memRead s payloadBase a m
  | animation => exact length_memRead s payloadBase a m

theorem headerPadding_le_bodyMax (v : Variant) : headerPadding v ≤ Config.bodyMax := by
  cases v <;> decide

/-- Packet 0 carries the header and what fits beside it, a continuation packet at most BODY_MAX bytes (41_chunker.md R184 to
R186). -/
theorem length_makeBody_le (s : State) (v : Variant) (index total : Nat) :
    (makeBody s v index total).length ≤ Config.bodyMax := by
  have hpad := headerPadding_le_bodyMax v
  by_cases h : index = 0
  · simp only [makeBody, contentLength, if_pos h, List.length_append, length_header, length_content]
    omega
  · simp only [makeBody, contentLength, if_neg h, length_content]
    exact min_le_right _ _

/-! The frame around it. -/

theorem length_escByte_le (b : Byte) : (escByte b).length ≤ 2 := by
  unfold escByte
  split_ifs <;> simp

/-- Escaping at most doubles a sequence (43_framing_engine.md R264, R265). -/
theorem length_escape_le (l : List Byte) : (escape l).length ≤ 2 * l.length := by
  induction l with
  | nil => exact Nat.zero_le _
  | cons b rest ih =>
    have hb := length_escByte_le b
    simp only [escape, List.flatMap_cons, List.length_append, List.length_cons] at ih ⊢
    omega

/-- The lead byte 0x00 of a sub-packet is no control byte, so every byte of a frame but it and the envelope's four can
double. -/
theorem length_makeFrame_le (ct : Byte) (whole index : Nat) (body : List Byte) :
    (makeFrame ct (makeSubpacket whole index body)).length ≤ 2 * body.length + 19 := by
  obtain ⟨tail, hsub, hlen⟩ : ∃ tail, makeSubpacket whole index body = 0x00#8 :: tail ∧ tail.length = body.length + 6 :=
    ⟨_, rfl, by simp; omega⟩
  have hesc : escape ([ct] ++ 0x00#8 :: tail) = escByte ct ++ 0x00#8 :: escape tail := rfl
  have hct := length_escByte_le ct
  have htail := length_escape_le tail
  simp only [makeFrame, hsub, hesc, List.length_append, List.length_cons, List.length_nil, length_be16]
  omega

/-- No packet's frame is longer than 275 bytes (43_framing_engine.md R272). -/
theorem length_packetFrame_le (s : State) (v : Variant) (index total : Nat) :
    (packetFrame s v index total).length ≤ 275 := by
  have hbody : (makeBody s v index total).length ≤ 128 := length_makeBody_le s v index total
  have hframe := length_makeFrame_le (contentType v) (total + headerPadding v) index (makeBody s v index total)
  unfold packetFrame
  omega

/-- A GEN that succeeds writes the frame of its packet, which fits FRAME_BUF (41_chunker.md R180, 43_framing_engine.md
R273). -/
theorem generate_eq_ok {s : State} {index : Nat} {frame : List Byte} (h : generate s index = .ok frame) :
    ∃ v total, plan s = .ok (v, total) ∧ frame = packetFrame s v index total ∧
      frame.length ≤ s.params.frameBufBytes := by
  unfold generate at h
  split at h
  · cases h
  · rename_i v total hplan
    dsimp only at h
    split_ifs at h with hsize hindex hfits
    cases h
    exact ⟨v, total, hplan, rfl, Nat.le_of_not_lt hfits⟩

theorem length_of_generate {s : State} {index : Nat} {frame : List Byte} (h : generate s index = .ok frame) :
    frame.length ≤ s.params.frameBufBytes ∧ frame.length ≤ 275 := by
  obtain ⟨v, total, -, rfl, hfits⟩ := generate_eq_ok h
  exact ⟨hfits, length_packetFrame_le s v index total⟩

end Sys2Proof.Machine
end

section
/-! PROOF. The invariant of the machine (Safety.lean, State.Inv), in its two halves: the flags with RESULT and ERR_INFO, and
FRAME_LEN with the bytes of FRAME_BUF. Each half says what every event that writes its part does to it. -/

namespace Sys2Proof.Machine

/-- The half of the invariant about BUSY, STATUS, RESULT and ERR_INFO. -/
structure FlagsAgree (busy : Bool) (f : Status) (result errInfo : Word) : Prop where
  notBoth : f.done = true → f.err = false
  busyClears : busy = true → f.done = false ∧ f.err = false
  errHasCode : f.err = true ↔ f.errcode ≠ 0#4
  codeLegal : f.errcode.toNat ≤ 9
  errSeen : f.err = true → f.faultSeen = true
  errResult : f.err = true → result = 0#32
  doneInfo : f.done = true → errInfo = 0#32

/-- The half of the invariant about the memory, FRAME_LEN and FRAME_BUF. -/
structure FrameAgrees (m : Memory) (len : BitVec 9) (p : Params) : Prop where
  canonical : m.wf
  fits : len.toNat ≤ p.frameBufBytes ∧ len.toNat ≤ 275
  written : ∀ f, (m.read (frameBase + f)).isSome = true ↔ f < len.toNat

theorem State.inv_iff (s : State) :
    s.Inv ↔ FlagsAgree s.busy s.status s.result s.errInfo ∧ FrameAgrees s.mem s.frameLen s.params :=
  ⟨fun h => ⟨⟨h.notBoth, h.busyClears, h.errHasCode, h.codeLegal, h.errSeen, h.errResult, h.doneInfo⟩,
      ⟨h.canonical, h.frameFits, h.frameWritten⟩⟩,
    fun ⟨f, m⟩ => ⟨m.canonical, f.notBoth, f.busyClears, f.errHasCode, f.codeLegal, f.errSeen, f.errResult, f.doneInfo,
      m.fits, m.written⟩⟩

/-! The flags: what each event of 10_state.md R61 makes of them. -/

/-- Every error has an ERRCODE of its own, none of them a reserved one (60_exceptions.md R302). -/
theorem CmdError.code_range (e : CmdError) : e.code ≠ 0#4 ∧ e.code.toNat ≤ 9 := by
  cases e <;> decide

section
variable {busy : Bool} {f : Status} {result errInfo : Word}

theorem FlagsAgree.cleared : FlagsAgree false State.reset.status result errInfo := by
  constructor <;> simp [State.reset]

theorem FlagsAgree.issued : FlagsAgree true f.issued result errInfo := by
  constructor <;> simp

theorem FlagsAgree.succeeded : FlagsAgree false f.succeeded result 0#32 := by
  constructor <;> simp

theorem FlagsAgree.failed (e : CmdError) : FlagsAgree false (f.failed e) 0#32 errInfo := by
  obtain ⟨hne, hle⟩ := e.code_range
  constructor <;> simp [hne, hle]

/-- OVERRUN takes no part in the invariant. -/
theorem FlagsAgree.overran (h : FlagsAgree busy f result errInfo) : FlagsAgree busy f.overran result errInfo :=
  ⟨h.notBoth, h.busyClears, h.errHasCode, h.codeLegal, h.errSeen, h.errResult, h.doneInfo⟩

end

/-! The frame: what each store makes of it. -/

section
variable {m : Memory} {len : BitVec 9} {p : Params}

/-- An empty frame agrees with a memory that holds no byte of FRAME_BUF. -/
theorem FrameAgrees.empty (hwf : m.wf) (h : ∀ f, m.read (frameBase + f) = none) : FrameAgrees m 0#9 p :=
  ⟨hwf, by simp, fun f => by simp [h f]⟩

/-- Keeping no byte of FRAME_BUF empties the frame (10_state.md R59, 70_reset_and_hazards.md R342). -/
theorem FrameAgrees.keep (h : FrameAgrees m len p) {keep : Nat → Bool} (hk : ∀ f, keep (frameBase + f) = false) :
    FrameAgrees (m.keep keep) 0#9 p :=
  .empty (Memory.wf_keep h.canonical keep) fun f => by simp [hk f]

/-- A store below FRAME_BUF leaves the frame (20_memory.md R81). -/
theorem FrameAgrees.writeBytes (h : FrameAgrees m len p) {a : Nat} {bs : List Byte} (ha : a + bs.length ≤ frameBase) :
    FrameAgrees (m.writeBytes a bs) len p :=
  ⟨Memory.wf_writeBytes h.canonical a bs, h.fits, fun f => by
    rw [Memory.read_writeBytes, if_neg (by omega), h.written f]⟩

/-- A frame stored on an emptied FRAME_BUF is the frame that FRAME_LEN counts (41_chunker.md R197). -/
theorem FrameAgrees.storeFrame {s : State} {len : BitVec 9} (h : FrameAgrees s.mem len s.params) {frame : List Byte}
    (hbuf : frame.length ≤ s.params.frameBufBytes) (hmax : frame.length ≤ 275) :
    FrameAgrees (s.storeFrame frame).mem (s.storeFrame frame).frameLen s.params := by
  have hlen : (s.storeFrame frame).frameLen.toNat = frame.length := by
    rw [State.storeFrame_frameLen, BitVec.toNat_ofNat]
    omega
  refine ⟨Memory.wf_writeBytes (Memory.wf_keep h.canonical _) _ _, by rw [hlen]; exact ⟨hbuf, hmax⟩, fun f => ?_⟩
  rw [State.read_storeFrame_frame, hlen, isSome_getElem?]

end

theorem inRom_frame (f : Nat) : inRom (frameBase + f) = false := by
  simp [inRom, romBase, frameBase, Config.tableCapacity]

theorem belowFrame_frame (f : Nat) : belowFrame (frameBase + f) = false := by
  simp [belowFrame]

/-! The steps. -/

/-- Every host turn keeps the invariant. -/
theorem HostMove.keeps_inv {s t : State} (h : HostMove s t) (hinv : s.Inv) : t.Inv := by
  obtain ⟨hflags, hframe⟩ := s.inv_iff.mp hinv
  rw [State.inv_iff]
  cases h with
  | quiet => exact ⟨hflags, hframe⟩
  | drop => exact ⟨hflags.overran, hframe⟩
  | issue => exact ⟨.issued, hframe⟩
  | store => simpa [State.busy] using And.intro hflags hframe
  | byte pend addr v _ ha =>
    exact ⟨hflags, hframe.writeBytes (bs := [lowByte v]) (by simp [frameBase]; omega)⟩
  | word pend addr v _ ha =>
    exact ⟨hflags, hframe.writeBytes (by simp [wordBytes, frameBase]; omega)⟩
  | reset => exact ⟨.cleared, hframe.keep inRom_frame⟩

/-- Every completion keeps the invariant, whatever the flags were before. -/
theorem Completion.keeps_inv {s t : State} (h : Completion s t) (hinv : s.Inv) : t.Inv := by
  obtain ⟨-, hframe⟩ := s.inv_iff.mp hinv
  rw [State.inv_iff]
  cases h with
  | queryError r => exact ⟨.failed r.error, hframe⟩
  | genError r => exact ⟨.failed r.error, hframe.keep belowFrame_frame⟩
  | query => exact ⟨.succeeded, hframe⟩
  | gen index frame hgen =>
    obtain ⟨hbuf, hmax⟩ := length_of_generate hgen
    exact ⟨.succeeded, hframe.storeFrame hbuf hmax⟩

/-- The steps of latency a command has left take no part in the invariant. -/
theorem State.Inv.countDown {s : State} (h : s.Inv) {c d : InFlight} (hfly : s.inflight = some c) :
    ({ s with inflight := some d } : State).Inv := by
  obtain ⟨hflags, hframe⟩ := s.inv_iff.mp h
  have hbusy : s.busy = true := by simp [State.busy, hfly]
  rw [hbusy] at hflags
  exact (State.inv_iff _).mpr ⟨hflags, hframe⟩

/-- Settles O15: a step is the completion of the due command or a host turn, and each keeps both halves of the invariant. -/
theorem stepKeepsInvariant : Obligations.StepKeepsInvariant := by
  unfold Obligations.StepKeepsInvariant
  intro s t hinv hstep
  obtain ⟨-, hmove⟩ | ⟨w, n, hfly, hmove⟩ | ⟨w, -, hcomp⟩ := step_cases hstep
  · exact hmove.keeps_inv hinv
  · exact hmove.keeps_inv (hinv.countDown hfly)
  · exact hcomp.keeps_inv hinv

/-- Settles O14: after reset the flags are clear and the memory holds nothing. -/
theorem resetStateMeetsInvariant : Obligations.ResetStateMeetsInvariant :=
  State.reset.inv_iff.mpr ⟨.cleared, .empty List.Pairwise.nil fun _ => rfl⟩

end Sys2Proof.Machine
end

section
/-! PROOF. The memories (10_state.md R53 to R59; 20_memory.md R81 to R90): what a host write to an entry does, idle and busy,
and that no command writes below FRAME_BUF. -/

namespace Sys2Proof.Machine

/-! Host writes to the payload memories, the counterpart of State.hostRead_byte and State.hostRead_word. -/

section
variable {s : State} {a : Nat}

/-- A performed access to a window: right width, aligned (20_memory.md R84, R85). -/
theorem State.hostWrite_window {width : Width} {win : Window} (hm : misaligned width a = false)
    (hw : windowAt s.params a = some win) (he : win.entry = width) (v : Word) :
    s.hostWrite width a v = s.writeEntry win a v := by
  simp [State.hostWrite, hm, hw, he]

theorem State.hostWrite_byte (h : (0x010000 ≤ a ∧ a < 0x030000) ∨ (0x200000 ≤ a ∧ a < 0x400000)) (v : Word) :
    s.hostWrite .w8 a v = if s.busy then s.dropWrite else s.putByte a (lowByte v) := by
  rcases windowAt_byteMem (p := s.params) h with hw | hw | hw <;>
    exact State.hostWrite_window (misaligned_w8 a) hw rfl v

theorem State.hostWrite_word (h : 0x100000 ≤ a ∧ a < 0x180000) (h4 : a % 4 = 0) (v : Word) :
    s.hostWrite .w32 a v = if s.busy then s.dropWrite else s.putWord a v := by
  rcases windowAt_wordMem (p := s.params) h with hw | hw <;>
    exact State.hostWrite_window ((misaligned_w32 a).mpr h4) hw rfl v

end

/-- A write to a register that takes writes is dropped while BUSY (20_memory.md R90). -/
theorem State.hostWrite_busyReg {s : State} (hbusy : s.busy = true) {r : Reg} (hr : r.readOnly = false) (v : Word) :
    s.hostWrite .w32 r.offset v = s.dropWrite := by
  simp [State.hostWrite_reg, State.writeReg, hr, hbusy]

/-- CMD and the CFG registers at their offsets (10_state.md R33). -/
theorem exists_reg_of_writable_offset :
    ∀ a ∈ [0x00, 0x20, 0x24, 0x28, 0x2C, 0x30, 0x34, 0x38, 0x3C], ∃ r : Reg, a = r.offset ∧ r.readOnly = false := by
  simp only [List.forall_mem_cons]
  exact ⟨⟨.cmd, rfl, rfl⟩, ⟨.cfgVariant, rfl, rfl⟩, ⟨.cfgDataLen, rfl, rfl⟩, ⟨.cfgFrameCount, rfl, rfl⟩,
    ⟨.cfgPhraseLen, rfl, rfl⟩, ⟨.cfgColorsLen, rfl, rfl⟩, ⟨.cfgCharset, rfl, rfl⟩, ⟨.cfgCharlistLen, rfl, rfl⟩,
    ⟨.cfgTableLen, rfl, rfl⟩, List.forall_mem_nil _⟩

/-- Settles O54: a register, an 8-bit entry and a 32-bit entry each drop the write while BUSY. -/
theorem writesWhileBusyAreDropped : Obligations.WritesWhileBusyAreDropped := by
  unfold Obligations.WritesWhileBusyAreDropped
  intro s a v hbusy
  refine ⟨?_, fun h => (State.hostWrite_byte h v).trans (if_pos hbusy)⟩
  rintro (hreg | ⟨hlo, hhi, h4⟩)
  · obtain ⟨r, rfl, hr⟩ := exists_reg_of_writable_offset a hreg
    exact State.hostWrite_busyReg hbusy hr v
  · exact (State.hostWrite_word ⟨hlo, hhi⟩ h4 v).trans (if_pos hbusy)

/-- Settles O57: an idle write is the store of a byte or of an entry, and a read returns what the store left there. -/
theorem memoryEntriesReadBackWhatWasWritten : Obligations.MemoryEntriesReadBackWhatWasWritten := by
  unfold Obligations.MemoryEntriesReadBackWhatWasWritten
  intro s a v hidle
  have hnot : ¬ s.busy = true := by simp [hidle]
  refine ⟨fun h => ?_, fun ⟨hlo, hhi, h4⟩ => ?_⟩
  · rw [State.hostWrite_byte h v, if_neg hnot]
    refine ⟨?_, fun x hx => (State.byteAt_putByte ..).trans (if_neg hx)⟩
    rw [State.hostRead_byte (by omega), State.byteAt_putByte, if_pos rfl]
    exact setWidth_usedBits v 8
  · rw [State.hostWrite_word ⟨hlo, hhi⟩ h4 v, if_neg hnot]
    refine ⟨?_, fun x hx => State.byteAt_putWord_outside s a x v hx⟩
    rw [State.hostRead_word ⟨hlo, hhi⟩ h4, State.wordAt_putWord]

/-! The completions of a command: what each leaves as it was, and the flags it sets (60_exceptions.md R300, R301, R313). -/

section
variable {s t : State}

/-- No completion writes a CFG register or a payload memory, nor what stands outside the block (20_memory.md R86). -/
theorem Completion.keeps_payload (h : Completion s t) : SamePayload s t ∧ SameOutside s t := by
  cases h with
  | queryError r => obtain ⟨hspec, -⟩ := s.raise_query_spec r; exact ⟨hspec.payload, hspec.outside⟩
  | genError r => obtain ⟨hspec, -⟩ := s.raise_gen_spec r; exact ⟨hspec.payload, hspec.outside⟩
  | query value => obtain ⟨hspec, -⟩ := s.succeed_spec value; exact ⟨hspec.payload, hspec.outside⟩
  | gen index frame hgen =>
    obtain ⟨-, hmax⟩ := length_of_generate hgen
    obtain ⟨hspec, -⟩ := s.genSucceed_spec frame (by omega)
    exact ⟨hspec.payload, hspec.outside⟩

/-- The only memory a completion stores to or forgets is FRAME_BUF (20_memory.md R86, 41_chunker.md R197). -/
theorem Completion.read_below (h : Completion s t) {a : Nat} (ha : a < frameBase) : t.mem.read a = s.mem.read a := by
  cases h with
  | queryError => rfl
  | genError => exact s.read_forgetFrame_below ha
  | query => rfl
  | gen index frame => exact s.read_storeFrame_below frame ha

/-- "exactly one of two ways" (60_exceptions.md R300). -/
theorem Completion.status_cases (h : Completion s t) :
    t.status = s.status.succeeded ∨ ∃ e, t.status = s.status.failed e := by
  cases h with
  | queryError r => exact .inr ⟨r.error, rfl⟩
  | genError r => exact .inr ⟨r.error, rfl⟩
  | query => exact .inl rfl
  | gen => exact .inl rfl

theorem Completion.flags (h : Completion s t) :
    t.status.overrun = s.status.overrun ∧ t.status.done = !t.status.err ∧
      (t.status.errcode = 0#4 ↔ t.status.done = true) ∧
      t.status.faultSeen = (s.status.faultSeen || t.status.err) := by
  obtain hok | ⟨e, herr⟩ := h.status_cases
  · simp [hok]
  · obtain ⟨hcode, -⟩ := e.code_range
    simp [herr, hcode]

end

/-- A query ends in an error completion that is not GEN's, or in a success without a frame (40_planner.md R156 to R158). -/
theorem exec_query {i : Instr} (hi : i = .qtotal ∨ i = .qpad ∨ i = .qcount) (s : State) :
    (∃ r, exec i s = .next (s.raise false r)) ∨ ∃ value, exec i s = .next (s.succeed value) := by
  rcases hi with rfl | rfl | rfl
  · simp only [exec, execQtotal]
    cases plan s with
    | error r => exact .inl ⟨r, rfl⟩
    | ok q => exact .inr ⟨q.2, rfl⟩
  · simp only [exec, execQpad]
    cases s.variant with
    | none => exact .inl ⟨_, rfl⟩
    | some v => exact .inr ⟨headerPadding v, rfl⟩
  · simp only [exec, execQcount]
    cases plan s with
    | error r => exact .inl ⟨r, rfl⟩
    | ok q => exact .inr ⟨packetCount (q.2 + headerPadding q.1), rfl⟩

theorem exec_query_sameFrame {i : Instr} (hi : i = .qtotal ∨ i = .qpad ∨ i = .qcount) {s t : State}
    (h : exec i s = .next t) : SameFrame s t := by
  obtain ⟨r, hr⟩ | ⟨value, hv⟩ := exec_query hi s
  · cases hr.symm.trans h
    exact (s.raise_query_spec r).2
  · cases hv.symm.trans h
    exact (s.succeed_spec value).2

/-- Settles O40: every command ends in one of the completions, and each keeps the payload and sets its flags alike; a query's
completion stores no frame. -/
theorem commandsNeverWriteThePayload : Obligations.CommandsNeverWriteThePayload := by
  unfold Obligations.CommandsNeverWriteThePayload
  intro i s
  obtain ⟨t, hexec, hcomp⟩ := exec_completes i s
  obtain ⟨hpay, hout⟩ := hcomp.keeps_payload
  obtain ⟨hover, hdone, hcode, hseen⟩ := hcomp.flags
  exact ⟨t, hexec, t.busy_eq_false.mpr hcomp.inflight, hpay, hout, fun _ ha => hcomp.read_below ha, hover, hdone, hcode,
    hseen, fun hi => exec_query_sameFrame hi hexec⟩

end Sys2Proof.Machine
end

section
/-! PROOF. The command word (30_encoding.md R110 to R118): what the decoder accepts, said once as an equivalence over the
three fields of a word; the statements about words are read off it. -/

namespace Sys2Proof.Machine

/-- A word decodes to a command exactly when OP and ARG are the command's and RSV is 0 (30_encoding.md R113, R114). -/
theorem decode_eq_ok_iff {w : Word} {i : Instr} :
    decode w = .ok i ↔ bitField w 31 28 = i.opcode ∧ bitField w 27 16 = 0 ∧ bitField w 15 0 = i.arg := by
  constructor
  · intro h
    simp only [decode] at h
    split_ifs at h with hrsv hop harg hop harg hop harg hop <;> cases h
    · exact ⟨hop, not_not.mp hrsv, harg⟩
    · exact ⟨hop, not_not.mp hrsv, harg⟩
    · exact ⟨hop, not_not.mp hrsv, harg⟩
    · exact ⟨hop, not_not.mp hrsv, rfl⟩
  · rintro ⟨hop, hrsv, harg⟩
    simp only [decode, hop, hrsv, harg]
    cases i <;> rfl

theorem encode_fields (i : Instr) : Laws.EncodedFields.Statement i := by
  cases i with
  | qtotal => exact Laws.EncodedFields.qtotal
  | qpad => exact Laws.EncodedFields.qpad
  | qcount => exact Laws.EncodedFields.qcount
  | gen index => exact Laws.EncodedFields.gen index

/-- The three fields make up the word (30_encoding.md R110, R111). -/
theorem toNat_eq_fields (w : Word) :
    w.toNat = bitField w 31 28 * 2 ^ 28 + bitField w 27 16 * 2 ^ 16 + bitField w 15 0 := by
  have hw := w.isLt
  simp only [bitField]
  omega

theorem Instr.wellFormed_iff {i : Instr} : i.wellFormed = true ↔ i.arg < 2 ^ 16 := by
  cases i with
  | qtotal | qpad | qcount => decide
  | gen index => exact decide_eq_true_iff.trans Nat.lt_succ_iff.symm

/-- A word with an opcode of the table is legal when RSV is 0, and so is ARG in a query (30_encoding.md R113 to R115). -/
theorem exists_decode_iff {w : Word} :
    (∃ i, decode w = .ok i) ↔ bitField w 27 16 = 0 ∧ (bitField w 31 28 = 4 ∨
      (bitField w 31 28 = 1 ∨ bitField w 31 28 = 2 ∨ bitField w 31 28 = 3) ∧ bitField w 15 0 = 0) := by
  simp only [decode_eq_ok_iff]
  constructor
  · rintro ⟨i, hop, hrsv, harg⟩
    cases i with
    | qtotal => exact ⟨hrsv, .inr ⟨.inl hop, harg⟩⟩
    | qpad => exact ⟨hrsv, .inr ⟨.inr (.inl hop), harg⟩⟩
    | qcount => exact ⟨hrsv, .inr ⟨.inr (.inr hop), harg⟩⟩
    | gen index => exact ⟨hrsv, .inl hop⟩
  · rintro ⟨hrsv, hop | ⟨hop | hop | hop, harg⟩⟩
    · exact ⟨.gen _, hop, hrsv, rfl⟩
    · exact ⟨.qtotal, hop, hrsv, harg⟩
    · exact ⟨.qpad, hop, hrsv, harg⟩
    · exact ⟨.qcount, hop, hrsv, harg⟩

theorem exists_decode_error_iff {w : Word} : (∃ e, decode w = .error e) ↔ ¬ ∃ i, decode w = .ok i := by
  cases decode w <;> simp

/-- A field of the word is its bits, read as a number (00_scope.md R13). -/
theorem toNat_extractLsb'_eq_bitField (w : Word) (hi lo : Nat) :
    (w.extractLsb' lo (hi + 1 - lo)).toNat = bitField w hi lo := by
  rw [BitVec.extractLsb'_toNat, Nat.shiftRight_eq_div_pow, bitField]

/-- The word of GEN is `(OP << 28) | index` (30_encoding.md R118). -/
theorem encode_gen (n : Nat) : encode (.gen n) = BitVec.ofNat 32 (0x40000000 + n) := by
  have hop : 4 * 2 ^ 28 = 0x40000000 := by decide
  rw [encode, Instr.opcode, Instr.arg, hop]

/-- Settles O1: an encoded word has the fields that the decoder asks for. -/
theorem decodeEncodeRoundTrip : Obligations.DecodeEncodeRoundTrip := by
  unfold Obligations.DecodeEncodeRoundTrip
  intro i hwf
  exact decode_eq_ok_iff.mpr (encode_fields i hwf)

/-- Settles O2: a legal word's fields are the command's, and the fields make up the word. -/
theorem encodeDecodeRoundTrip : Obligations.EncodeDecodeRoundTrip := by
  unfold Obligations.EncodeDecodeRoundTrip
  intro w i hdec
  obtain ⟨hop, hrsv, harg⟩ := decode_eq_ok_iff.mp hdec
  have hw := toNat_eq_fields w
  rw [hop, hrsv, harg, Nat.zero_mul, Nat.add_zero] at hw
  refine ⟨Instr.wellFormed_iff.mpr (harg ▸ Nat.mod_lt _ (by decide)), ?_⟩
  rw [encode, ← hw, BitVec.ofNat_toNat, BitVec.setWidth_eq]

/-- Settles O3: the illegal words are those with no command, told by the three fields, which are bit extracts. -/
theorem illegalWordsAreExactlyTheReservedOnes : Obligations.IllegalWordsAreExactlyTheReservedOnes := by
  unfold Obligations.IllegalWordsAreExactlyTheReservedOnes
  intro w
  have hop : (w.extractLsb' 28 4).toNat = bitField w 31 28 := toNat_extractLsb'_eq_bitField w 31 28
  have hrsv : (w.extractLsb' 16 12).toNat = bitField w 27 16 := toNat_extractLsb'_eq_bitField w 27 16
  have harg : (w.extractLsb' 0 16).toNat = bitField w 15 0 := toNat_extractLsb'_eq_bitField w 15 0
  rw [exists_decode_error_iff, exists_decode_iff]
  simp only [← BitVec.toNat_inj, ne_eq, BitVec.toNat_ofNat, hrsv, hop, harg]
  omega

/-- Settles O4: the words of the table are the encoder's. -/
theorem tableWordsDecodeToTheirCommands : Obligations.TableWordsDecodeToTheirCommands := by
  unfold Obligations.TableWordsDecodeToTheirCommands
  exact ⟨decodeEncodeRoundTrip .qtotal rfl, decodeEncodeRoundTrip .qpad rfl, decodeEncodeRoundTrip .qcount rfl,
    fun n hn => encode_gen n ▸ decodeEncodeRoundTrip (.gen n) (decide_eq_true hn)⟩

end Sys2Proof.Machine
end

section
/-! PROOF. The assembler's line GEN n (30_encoding.md R118): its two words, the number the second stands for, and the word
of the command. -/

namespace Sys2Proof.Machine

/-! Digits. -/

theorem digitValue_digitChar {base d : Nat} (hbase : base ≤ 16) (hd : d < base) :
    digitValue base d.digitChar = some d := by
  have hchar : ∀ k < 16, k.digitChar.toNat = if k < 10 then 48 + k else 87 + k := by decide
  have hcode := hchar d (hd.trans_le hbase)
  by_cases hlow : d < 10
  · have hrange : 48 ≤ 48 + d ∧ 48 + d ≤ 57 := by omega
    rw [if_pos hlow] at hcode
    simp only [digitValue, hcode, if_pos hrange, Nat.add_sub_cancel_left, if_pos hd]
  · have hnot : ¬(48 ≤ 87 + d ∧ 87 + d ≤ 57) := by omega
    have hrange : 97 ≤ 87 + d ∧ 87 + d ≤ 102 := by omega
    rw [if_neg hlow] at hcode
    simp only [digitValue, hcode, if_neg hnot, if_pos hrange, Nat.add_sub_cancel_left, if_pos hd]

theorem digitsValue_append {base acc v : Nat} {xs : List Char} (h : digitsValue base xs acc = some v) (ys : List Char) :
    digitsValue base (xs ++ ys) acc = digitsValue base ys v := by
  induction xs generalizing acc with
  | nil => cases h; rfl
  | cons c rest ih =>
    rw [List.cons_append, digitsValue]
    rw [digitsValue] at h
    cases hc : digitValue base c with
    | none => simp [hc] at h
    | some d =>
      rw [hc] at h
      exact ih h

/-- The digits of a number stand for it in their base (30_encoding.md R118). -/
theorem digitsValue_toDigits {base : Nat} (hone : 1 < base) (hbase : base ≤ 16) (n : Nat) :
    digitsValue base (Nat.toDigits base n) 0 = some n := by
  induction n using Nat.strongRecOn with
  | ind n ih =>
    by_cases hn : n < base
    · rw [Nat.toDigits_of_lt_base hn]
      simp [digitsValue, digitValue_digitChar hbase hn]
    · have hlow : n % base < base := Nat.mod_lt n (by omega)
      rw [Nat.toDigits_of_base_le hone (Nat.le_of_not_lt hn),
        digitsValue_append (ih (n / base) (Nat.div_lt_self (by omega) hone))]
      simp [digitsValue, digitValue_digitChar hbase hlow, Nat.div_add_mod']

/-- A character without a value in the base is no digit of a number; so the blank is none, nor the `x` of `0x`. -/
theorem notMem_toDigits {base : Nat} (hone : 1 < base) (hbase : base ≤ 16) {c : Char} (hc : digitValue base c = none)
    (n : Nat) : c ∉ Nat.toDigits base n := by
  induction n using Nat.strongRecOn with
  | ind n ih =>
    have hne : ∀ d < base, c ≠ d.digitChar := by
      rintro d hd rfl
      simp [digitValue_digitChar hbase hd] at hc
    by_cases hn : n < base
    · rw [Nat.toDigits_of_lt_base hn]
      simpa using hne n hn
    · rw [Nat.toDigits_of_base_le hone (Nat.le_of_not_lt hn)]
      simpa using ⟨ih _ (Nat.div_lt_self (by omega) hone), hne _ (Nat.mod_lt n (by omega))⟩

/-! Numbers. -/

theorem parseNumber_hex {w : List Char} (hw : w ≠ []) : parseNumber ('0' :: 'x' :: w) = digitsValue 16 w 0 := by
  obtain ⟨c, rest, rfl⟩ := List.exists_cons_of_ne_nil hw
  rfl

theorem parseNumber_decimal {w : List Char} (hw : w ≠ []) (hx : 'x' ∉ w) : parseNumber w = digitsValue 10 w 0 := by
  unfold parseNumber
  split
  · exact absurd rfl hw
  · simp at hx
  · rfl

/-! Lines. -/

/-- A text without a blank is one word. -/
theorem lineWords_of_notMem {w : List Char} (hw : w ≠ []) (hblank : ' ' ∉ w) : lineWords w = [w] := by
  induction w with
  | nil => exact absurd rfl hw
  | cons c rest ih =>
    obtain ⟨hc, hrest⟩ := not_or.mp (mt List.mem_cons.mpr hblank)
    cases rest with
    | nil => simp [lineWords, Ne.symm hc]
    | cons d tail =>
      have hd : d ≠ ' ' := fun h => hrest (h ▸ List.mem_cons_self)
      have htail := ih (List.cons_ne_nil d tail) hrest
      rw [lineWords.eq_def]
      dsimp only
      rw [if_neg (Ne.symm hc), htail]
      split <;> simp_all

theorem lineWords_gen (w : List Char) : lineWords (['G', 'E', 'N', ' '] ++ w) = ['G', 'E', 'N'] :: lineWords w := rfl

theorem commandOfWords_gen {w : List Char} {n : Nat} (hn : parseNumber w = some n) :
    commandOfWords [['G', 'E', 'N'], w] = if (Instr.gen n).wellFormed then some (.gen n) else none := by
  simp only [commandOfWords, hn]
  rfl

/-- The line GEN with one more word that stands for a number: its word, or a refusal above 65535 (30_encoding.md R118). -/
theorem assemble_gen {w : List Char} {n : Nat} (hw : w ≠ []) (hblank : ' ' ∉ w) (hn : parseNumber w = some n) :
    assemble (['G', 'E', 'N', ' '] ++ w) =
      if n ≤ 65535 then some (BitVec.ofNat 32 (0x40000000 + n)) else none := by
  rw [assemble, parseCommand, lineWords_gen, lineWords_of_notMem hw hblank, commandOfWords_gen hn, ← encode_gen]
  by_cases h : n ≤ 65535 <;> simp [Instr.wellFormed, h]

/-- Settles O5: in decimal and in hexadecimal the index is one word, whose digits stand for the number. -/
theorem assemblerWritesGenAndRefusesLargeIndexes : Obligations.AssemblerWritesGenAndRefusesLargeIndexes := by
  unfold Obligations.AssemblerWritesGenAndRefusesLargeIndexes
  intro n
  constructor
  · refine assemble_gen Nat.toDigits_ne_nil (notMem_toDigits (by decide) (by decide) rfl n) ?_
    rw [parseNumber_decimal Nat.toDigits_ne_nil (notMem_toDigits (by decide) (by decide) rfl n)]
    exact digitsValue_toDigits (by decide) (by decide) n
  · have hblank : ' ' ∉ Nat.toDigits 16 n := notMem_toDigits (by decide) (by decide) rfl n
    refine assemble_gen (w := '0' :: 'x' :: Nat.toDigits 16 n) (List.cons_ne_nil _ _) (by simpa using hblank) ?_
    rw [parseNumber_hex Nat.toDigits_ne_nil]
    exact digitsValue_toDigits (by decide) (by decide) n

end Sys2Proof.Machine
end

section
/-! PROOF. The pseudo-instruction cmd X (30_encoding.md R120): the poll stays the host's next action while X is in flight,
and the read after the completion ends it. -/

namespace Sys2Proof.Machine

/-- A poll that reads BUSY = 1 stays the next action. -/
theorem State.hostTurn_of_busy_poll {s : State} {rest : List HostAction} (hbusy : s.busy = true)
    (hp : s.pending = .poll :: rest) : s.hostTurn = { s with readLog := s.statusWord :: s.readLog } := by
  rw [State.hostTurn_of_pending hp]
  refine (if_pos hbusy).trans ?_
  rw [← hp]
  rfl

/-- A poll that reads BUSY = 0 is done. -/
theorem State.hostTurn_of_idle_poll {s : State} {rest : List HostAction} (hidle : s.busy = false)
    (hp : s.pending = .poll :: rest) :
    s.hostTurn = { s with pending := rest, readLog := s.statusWord :: s.readLog } := by
  rw [State.hostTurn_of_pending hp]
  exact if_neg (ne_true_of_eq_false hidle)

/-- A step of latency under a poll keeps the poll and the payload. -/
theorem step_of_running_poll {s : State} {w : Word} {n : Nat} {rest : List HostAction}
    (hfly : s.inflight = some { word := w, remaining := n + 1 }) (hp : s.pending = .poll :: rest) :
    ∃ t, step s = .next t ∧ t.inflight = some { word := w, remaining := n } ∧ t.pending = .poll :: rest ∧
      SamePayload s t :=
  ⟨_, (step_of_running hfly).trans (congrArg _ (State.hostTurn_of_busy_poll rfl hp)), rfl, hp,
    samePayload_of_port_change⟩

/-- The poll lasts the whole latency: a run comes to the command due on the payload as it stood, and goes on from there. -/
theorem run_of_running_poll {s : State} {w : Word} {n : Nat} {rest : List HostAction}
    (hfly : s.inflight = some { word := w, remaining := n }) (hp : s.pending = .poll :: rest) :
    ∃ due : State, (∀ k, Host.Core.run core (n + k) s = Host.Core.run core k due) ∧
      due.inflight = some { word := w, remaining := 0 } ∧ due.pending = .poll :: rest ∧ SamePayload s due := by
  induction n generalizing s with
  | zero => exact ⟨s, fun k => by rw [Nat.zero_add], hfly, hp, .refl s⟩
  | succ n ih =>
    obtain ⟨t, hstep, hflyT, hpT, hpay⟩ := step_of_running_poll hfly hp
    obtain ⟨due, hrun, hdue, hpend, hpay'⟩ := ih hflyT hpT
    exact ⟨due, fun k => by rw [Nat.succ_add, run_succ_of_step hstep, hrun], hdue, hpend, hpay.trans hpay'⟩

/-- Bit 0 of STATUS is BUSY (10_state.md R36). -/
theorem State.statusWord_busy (s : State) : s.statusWord.getLsbD 0 = s.busy :=
  statusWordHasTheStatedLayout s 0

/-- Settles O12: the write issues the word, the poll outlasts its latency, the completion keeps the host's actions, and one
more read of STATUS ends the poll. -/
theorem cmdScriptLineRunsToItsEnd : Obligations.CmdScriptLineRunsToItsEnd := by
  unfold Obligations.CmdScriptLineRunsToItsEnd
  intro s i rest hidle hwf hp
  obtain ⟨issued, n, hissue, hfly, -, -, hpay, -, -, -, hpoll, -⟩ :=
    cmdWriteIssuesTheCommand s (encode i) (.poll :: rest) hidle hp
  obtain ⟨due, hwait, hdue, hpoll', hpay'⟩ := run_of_running_poll hfly hpoll
  have hrun := fun k => (run_succ_of_step hissue (n + k)).trans (hwait k)
  obtain ⟨done, hexec, hcomp⟩ := exec_completes i due
  obtain ⟨-, houtside⟩ := hcomp.keeps_payload
  have hdone := (stepRunsDecodedInstruction due _ i hdue (decodeEncodeRoundTrip i hwf)).trans hexec
  have hbusy : done.busy = false := done.busy_eq_false.mpr hcomp.inflight
  have hend := (step_of_idle hcomp.inflight).trans
    (congrArg _ (State.hostTurn_of_idle_poll hbusy (houtside.pending.trans hpoll')))
  exact ⟨n, issued, due, done, hissue, hfly, hrun 0, hdue, hpay.trans hpay', hexec,
    (hrun 1).trans (run_succ_of_step hdone 0), hcomp.inflight, done.statusWord_busy.trans hbusy,
    (hrun 2).trans ((run_succ_of_step hdone 1).trans (run_succ_of_step hend 0))⟩

end Sys2Proof.Machine
end

section
/-! PROOF. The packet planner and the queries (40_planner.md R150 to R159): when the plan succeeds and what it counts, the
packet count as the least number of packets that suffices, and the one completion each query makes of a plan. -/

namespace Sys2Proof.Machine

/-! The variant and its header padding (10_state.md R45, 40_planner.md R150). -/

section
variable {s : State}

theorem State.variant_text (h : s.cfgVariant = 0#2) : s.variant = some .text := by simp [State.variant, h]

theorem State.variant_image (h : s.cfgVariant = 1#2) : s.variant = some .image := by simp [State.variant, h]

theorem State.variant_animation (h : s.cfgVariant = 2#2) : s.variant = some .animation := by simp [State.variant, h]

/-- CFG_VARIANT selects a variant unless it holds its reserved value. -/
theorem State.cfgVariant_cases (h : s.cfgVariant ≠ 3#2) :
    s.cfgVariant = 0#2 ∨ s.cfgVariant = 1#2 ∨ s.cfgVariant = 2#2 := by
  bv_omega

theorem State.exists_variant_headerPadding (h : s.cfgVariant ≠ 3#2) :
    ∃ v, s.variant = some v ∧
      headerPadding v = if s.cfgVariant = 0#2 then 107 else if s.cfgVariant = 1#2 then 26 else 27 := by
  obtain htext | himage | hanim := State.cfgVariant_cases h
  · exact ⟨.text, State.variant_text htext, by rw [if_pos htext]; rfl⟩
  · exact ⟨.image, State.variant_image himage, by rw [himage]; rfl⟩
  · exact ⟨.animation, State.variant_animation hanim, by rw [hanim]; rfl⟩

end

theorem headerPadding_pos (v : Variant) : 0 < headerPadding v := by
  cases v <;> decide

/-! The plan (40_planner.md R151, R152). -/

/-- The validation scan passes exactly the phrases whose characters all pass its checks (42_glyph_renderer.md R232). -/
theorem scanChar_eq_none_iff (s : State) (i : Nat) :
    scanChar s i = none ↔
      0 < s.colorsLen ∧ (s.colorTag i).toNat ≤ 6 ∧ ∃ g, glyph s (s.charCode i) = .ok g := by
  unfold scanChar
  split_ifs with hcolors htag
  · simp [hcolors]
  · simp [htag]
  · have hpos := Nat.pos_of_ne_zero hcolors
    have htag' := Nat.le_of_not_lt htag
    cases glyph s (s.charCode i) with
    | ok g => simp [hpos, htag']
    | error e => simp

theorem validationScan_eq_none_iff (s : State) : validationScan s = none ↔ TextValid s := by
  simp only [validationScan, List.findSome?_eq_none_iff, List.mem_range, scanChar_eq_none_iff, TextValid]

theorem length_textStream (s : State) : (textStream s).length = ((gatedSpans s).map List.length).sum :=
  List.length_flatten

theorem plan_eq_ok {s : State} {v : Variant} (hv : s.variant = some v) (hcheck : payloadCheck s v = none) :
    plan s = .ok (v, contentTotal s v) := by
  simp only [plan, hv, hcheck]

/-- Image and Animation payloads are not scanned, and hold CFG_DATA_LEN bytes (40_planner.md R151). -/
theorem plan_of_imageOrAnimation {s : State} (h : s.cfgVariant = 1#2 ∨ s.cfgVariant = 2#2) :
    ∃ v, plan s = .ok (v, s.cfgDataLen.toNat) ∧ headerPadding v = if s.cfgVariant = 1#2 then 26 else 27 := by
  obtain himage | hanim := h
  · exact ⟨.image, plan_eq_ok (State.variant_image himage) rfl, by rw [if_pos himage]; rfl⟩
  · exact ⟨.animation, plan_eq_ok (State.variant_animation hanim) rfl, by rw [hanim]; rfl⟩

theorem plan_of_validText {s : State} (h : s.cfgVariant = 0#2) (hvalid : TextValid s) :
    plan s = .ok (.text, textTotal s) :=
  plan_eq_ok (State.variant_text h) ((validationScan_eq_none_iff s).mpr hvalid)

/-! The packet count (40_planner.md R154, R155). -/

/-- The packet count is the least number of 128-byte packets that hold the whole size (00_scope.md R15). -/
theorem packetCount_le_iff (whole q : Nat) : packetCount whole ≤ q ↔ whole ≤ 128 * q := by
  simp only [packetCount, ceilDiv, Config.bodyMax]
  omega

/-- Settles O26: some header is to be sent, and it fits one packet. -/
theorem packetCountIsAtLeastOne : Obligations.PacketCountIsAtLeastOne := by
  unfold Obligations.PacketCountIsAtLeastOne
  intro s v total _
  have hpos := headerPadding_pos v
  have hmax : headerPadding v ≤ 128 := headerPadding_le_bodyMax v
  have hnone := packetCount_le_iff (total + headerPadding v) 0
  have hone := packetCount_le_iff (total + headerPadding v) 1
  omega

/-! The completions of the queries (40_planner.md R156 to R158). -/

section
variable {s t : State}

theorem exec_qpad_of_variant {v : Variant} (h : s.variant = some v) :
    exec .qpad s = .next (s.succeed (headerPadding v)) := by
  simp only [exec, execQpad, h]

theorem exec_qtotal_of_plan {v : Variant} {total : Nat} (h : plan s = .ok (v, total)) :
    exec .qtotal s = .next (s.succeed total) := by
  simp only [exec, execQtotal, h]

theorem exec_qcount_of_plan {v : Variant} {total : Nat} (h : plan s = .ok (v, total)) :
    exec .qcount s = .next (s.succeed (packetCount (total + headerPadding v))) := by
  simp only [exec, execQcount, h]

/-- A query completes alike on states with the same payload: in the same error, or with the same value (40_planner.md
R159). -/
theorem SamePayload.exec_query (h : SamePayload s t) {i : Instr} (hi : i = .qtotal ∨ i = .qpad ∨ i = .qcount) :
    (∃ r, exec i s = .next (s.raise false r) ∧ exec i t = .next (t.raise false r)) ∨
      ∃ value, exec i s = .next (s.succeed value) ∧ exec i t = .next (t.succeed value) := by
  rcases hi with rfl | rfl | rfl
  · simp only [exec, execQtotal, h.plan_eq]
    cases plan s with
    | error r => exact .inl ⟨r, rfl, rfl⟩
    | ok q => exact .inr ⟨q.2, rfl, rfl⟩
  · simp only [exec, execQpad, h.variant_eq]
    cases s.variant with
    | none => exact .inl ⟨_, rfl, rfl⟩
    | some v => exact .inr ⟨headerPadding v, rfl, rfl⟩
  · simp only [exec, execQcount, h.plan_eq]
    cases plan s with
    | error r => exact .inl ⟨r, rfl, rfl⟩
    | ok q => exact .inr ⟨packetCount (q.2 + headerPadding q.1), rfl, rfl⟩

end

/-- Settles O27: on both states the query raises one error or succeeds with one value, and either fixes the registers. -/
theorem queriesDependOnlyOnThePayload : Obligations.QueriesDependOnlyOnThePayload := by
  unfold Obligations.QueriesDependOnlyOnThePayload
  intro i s t s' t' hi hpay hs ht
  obtain ⟨r, hs', ht'⟩ | ⟨value, hs', ht'⟩ := hpay.exec_query hi
  all_goals
    cases hs'.symm.trans hs
    cases ht'.symm.trans ht
    exact ⟨rfl, rfl, rfl, rfl, rfl⟩

/-- Settles O22: every variant but the reserved one has its header padding. -/
theorem qpadReturnsHeaderPadding : Obligations.QpadReturnsHeaderPadding := by
  unfold Obligations.QpadReturnsHeaderPadding
  intro s h
  obtain ⟨v, hv, hpad⟩ := State.exists_variant_headerPadding h
  obtain ⟨hdone, hframe⟩ := s.succeed_spec (headerPadding v)
  exact ⟨_, exec_qpad_of_variant hv, hframe, hpad ▸ hdone⟩

/-- Settles O23: the plan of such a payload needs no scan. -/
theorem qtotalOfImageOrAnimationIsDataLen : Obligations.QtotalOfImageOrAnimationIsDataLen := by
  unfold Obligations.QtotalOfImageOrAnimationIsDataLen
  intro s h
  obtain ⟨v, hplan, -⟩ := plan_of_imageOrAnimation h
  exact ⟨_, exec_qtotal_of_plan hplan, s.succeed_spec _⟩

/-- Settles O24: the plan's whole size, and the least count that holds it. -/
theorem qcountOfImageOrAnimationIsCeilDiv : Obligations.QcountOfImageOrAnimationIsCeilDiv := by
  unfold Obligations.QcountOfImageOrAnimationIsCeilDiv
  intro s h
  obtain ⟨v, hplan, hpad⟩ := plan_of_imageOrAnimation h
  obtain ⟨hdone, hframe⟩ := s.succeed_spec (packetCount (s.cfgDataLen.toNat + headerPadding v))
  rw [← hpad]
  exact ⟨_, _, exec_qcount_of_plan hplan, hdone, hframe, (packetCount_le_iff _ _).mp le_rfl,
    fun _ => (packetCount_le_iff _ _).mpr⟩

/-- Settles O25: the scan passes, and the total the plan counts is the stream's length or three times the spans'. -/
theorem queriesOfValidText : Obligations.QueriesOfValidText := by
  unfold Obligations.QueriesOfValidText
  intro s total hvariant hvalid htotal
  have hplan : plan s = .ok (.text, total) := by
    rw [plan_of_validText hvariant hvalid, htotal, length_textStream]
    rfl
  exact ⟨⟨_, exec_qtotal_of_plan hplan, s.succeed_spec _⟩, ⟨_, exec_qcount_of_plan hplan, s.succeed_spec _⟩⟩

end Sys2Proof.Machine
end

section
/-! PROOF. The completions of GEN (41_chunker.md R180, R182, R196 to R198): what its checks answer for an accepted payload,
in their order, and the one completion that each answer ends in. -/

namespace Sys2Proof.Machine

section
variable {s t : State}

theorem exec_gen_of_error {index : Nat} {r : Raise} (h : generate s index = .error r) :
    exec (.gen index) s = .next (s.raise true r) := by
  simp only [exec, execGen, h]

theorem exec_gen_of_ok {index : Nat} {frame : List Byte} (h : generate s index = .ok frame) :
    exec (.gen index) s = .next ((s.storeFrame frame).succeed frame.length) := by
  simp only [exec, execGen, h]

/-- After the plan GEN checks the size, the index and the frame's length, in this order (60_exceptions.md R312). -/
theorem generate_of_plan {v : Variant} {total : Nat} (h : plan s = .ok (v, total)) (index : Nat) :
    generate s index =
      if 65535 < total + headerPadding v then
        .error { error := .size, info := total + headerPadding v }
      else if packetCount (total + headerPadding v) ≤ index then
        .error { error := .index, info := index }
      else if s.params.frameBufBytes < (packetFrame s v index total).length then
        .error { error := .frameOverflow, info := (packetFrame s v index total).length }
      else .ok (packetFrame s v index total) := by
  simp only [generate, h, gt_iff_lt, ge_iff_le]

theorem generate_of_fitting {v : Variant} {total index : Nat} (hplan : plan s = .ok (v, total))
    (hsize : total + headerPadding v ≤ 65535) (hindex : index < packetCount (total + headerPadding v))
    (hfits : (packetFrame s v index total).length ≤ s.params.frameBufBytes) :
    generate s index = .ok (packetFrame s v index total) := by
  rw [generate_of_plan hplan, if_neg (Nat.not_lt.mpr hsize), if_neg (Nat.not_le.mpr hindex),
    if_neg (Nat.not_lt.mpr hfits)]

/-- GEN completes alike on states with the same payload: in the same error, or with the same frame (41_chunker.md R196). -/
theorem SamePayload.exec_gen (h : SamePayload s t) (index : Nat) :
    (∃ r, exec (.gen index) s = .next (s.raise true r) ∧ exec (.gen index) t = .next (t.raise true r)) ∨
      ∃ frame, frame.length < 512 ∧ exec (.gen index) s = .next ((s.storeFrame frame).succeed frame.length) ∧
        exec (.gen index) t = .next ((t.storeFrame frame).succeed frame.length) := by
  have hgen := h.generate_eq index
  cases hs : generate s index with
  | error r => exact .inl ⟨r, exec_gen_of_error hs, exec_gen_of_error (hgen.trans hs)⟩
  | ok frame =>
    obtain ⟨-, hmax⟩ := length_of_generate hs
    exact .inr ⟨frame, by omega, exec_gen_of_ok hs, exec_gen_of_ok (hgen.trans hs)⟩

end

/-- Settles O31: the size check is the first one after the plan. -/
theorem genSizeErrorComesBeforeIndex : Obligations.GenSizeErrorComesBeforeIndex := by
  unfold Obligations.GenSizeErrorComesBeforeIndex
  intro s v total index hplan hsize
  have hgen := generate_of_plan hplan index
  rw [if_pos hsize] at hgen
  exact ⟨_, exec_gen_of_error hgen, s.raise_gen_spec _⟩

/-- Settles O32: the size check passes and the index check does not. -/
theorem genIndexOutOfRangeEndsInIndex : Obligations.GenIndexOutOfRangeEndsInIndex := by
  unfold Obligations.GenIndexOutOfRangeEndsInIndex
  intro s v total index hplan hsize hindex
  have hcount : packetCount (total + headerPadding v) ≤ index := hindex
  have hgen := generate_of_plan hplan index
  rw [if_neg (Nat.not_lt.mpr hsize), if_pos hcount] at hgen
  exact ⟨_, exec_gen_of_error hgen, s.raise_gen_spec _⟩

/-- Settles O35: every check passes, and the packet's frame is the one stored. -/
theorem genCompletesWithThePacketFrame : Obligations.GenCompletesWithThePacketFrame := by
  unfold Obligations.GenCompletesWithThePacketFrame
  intro s v total index hplan hsize hindex hfits
  have hmax := length_packetFrame_le s v index total
  obtain ⟨hdone, hlen, hframe, hread, hbelow⟩ := s.genSucceed_spec (packetFrame s v index total) (by omega)
  exact ⟨_, exec_gen_of_ok (generate_of_fitting hplan hsize hindex hfits), hdone, hlen, hframe,
    fun f hf => (hread f).trans (List.getElem?_eq_none hf), hbelow⟩

/-- Settles O39: on both states GEN raises one error, and then has no frame, or stores one frame. -/
theorem genDependsOnlyOnIndexAndPayload : Obligations.GenDependsOnlyOnIndexAndPayload := by
  unfold Obligations.GenDependsOnlyOnIndexAndPayload
  intro index s t s' t' hpay hs ht
  obtain ⟨r, hs', ht'⟩ | ⟨frame, hlen, hs', ht'⟩ := hpay.exec_gen index
  · cases hs'.symm.trans hs
    cases ht'.symm.trans ht
    exact ⟨rfl, rfl, rfl, rfl, rfl, rfl, rfl⟩
  · cases hs'.symm.trans hs
    cases ht'.symm.trans ht
    obtain ⟨-, -, hframeS, -, -⟩ := s.genSucceed_spec frame hlen
    obtain ⟨-, -, hframeT, -, -⟩ := t.genSucceed_spec frame hlen
    exact ⟨rfl, hframeT.trans hframeS.symm, rfl, rfl, rfl, rfl, rfl⟩

end Sys2Proof.Machine
end

section
/-! PROOF. The content of a payload as one sequence of bytes (41_chunker.md R187, 42_glyph_renderer.md R231 to R234): a window
of the Text stream is a piece of that stream, followed by zeros past its end, and adjoining pieces of content join. -/

namespace Sys2Proof.Machine

theorem takeD_add {α : Type} (m n : Nat) (l : List α) (d : α) :
    l.takeD (m + n) d = l.takeD m d ++ (l.drop m).takeD n d := by
  induction m generalizing l with
  | zero => simp
  | succ m ih => simp only [Nat.succ_add, List.takeD, ih, List.cons_append, List.drop_tail]

/-- A piece that ends within the first span is a slice of that span. -/
theorem slice_eq_takeD_drop (sp rest : List Byte) {skip q : Nat} (h : skip + q ≤ sp.length) :
    slice sp skip (skip + q) = ((sp ++ rest).drop skip).takeD q 0x00#8 := by
  rw [List.takeD_eq_take _ (by simp; omega), List.drop_append_of_le_length (by omega),
    List.take_append_of_le_length (by simp; omega), slice, Nat.add_sub_cancel_left]

/-- The skip/take loop adds to what it has taken the bytes of the joined spans that are still asked for, 0x00 past their end
(42_glyph_renderer.md R233, R234). -/
theorem windowLoop_eq_takeD (spans : List (List Byte)) (skip m : Nat) (out : List Byte) (h : out.length ≤ m) :
    windowLoop spans skip m out = out ++ (spans.flatten.drop skip).takeD (m - out.length) 0x00#8 := by
  induction spans generalizing skip out with
  | nil => simp [windowLoop, zeros]
  | cons sp rest ih =>
    rw [windowLoop, List.flatten_cons]
    dsimp only
    by_cases hskip : sp.length ≤ skip
    · rw [if_pos hskip, ih _ out h, List.drop_append, List.drop_of_length_le hskip, List.nil_append]
    · rw [if_neg hskip]
      generalize hq : min (sp.length - skip) (m - out.length) = q
      have hsplit : m - out.length = q + (m - out.length - q) := by omega
      have hslice := slice_eq_takeD_drop sp rest.flatten (skip := skip) (q := q) (by omega)
      have hlen : (out ++ slice sp skip (skip + q)).length = out.length + q := by
        rw [List.length_append, length_slice]
        omega
      rw [hsplit, takeD_add, ← hslice, ← List.append_assoc]
      by_cases hfull : out.length + q = m
      · rw [if_pos (hlen.trans hfull), show m - out.length - q = 0 by omega, List.takeD_zero, List.append_nil]
      · have hend : ((sp ++ rest.flatten).drop skip).drop q = rest.flatten := by
          rw [List.drop_drop, show skip + q = sp.length by omega, List.drop_left]
        rw [if_neg (by omega), ih 0 _ (by omega), hlen, hend, List.drop_zero, Nat.sub_add_eq]

theorem window_eq_takeD (s : State) (a m : Nat) : window s a m = ((textStream s).drop a).takeD m 0x00#8 :=
  windowLoop_eq_takeD (gatedSpans s) a m [] (Nat.zero_le m)

/-- A window within the Text stream is a slice of it. -/
theorem window_eq_take (s : State) {a m : Nat} (h : m ≤ (textStream s).length - a) :
    window s a m = ((textStream s).drop a).take m := by
  rw [window_eq_takeD, List.takeD_eq_take _ (by rwa [List.length_drop])]

theorem memRead_append (s : State) (base a m n : Nat) :
    s.memRead base a (m + n) = s.memRead base a m ++ s.memRead base (a + m) n := by
  simp [State.memRead, List.range_add, Nat.add_assoc, Function.comp_def]

theorem content_zero (s : State) (v : Variant) (a : Nat) : content s v a 0 = [] :=
  List.eq_nil_of_length_eq_zero (length_content s v a 0)

/-- Adjoining pieces of content join without gap or overlap (41_chunker.md R187). -/
theorem content_append (s : State) (v : Variant) (a m n : Nat) :
    content s v a (m + n) = content s v a m ++ content s v (a + m) n := by
  cases v with
  | text => simp only [content, window_eq_takeD, takeD_add, List.drop_drop]
  | image => exact memRead_append s payloadBase a m n
  | animation => exact memRead_append s payloadBase a m n

end Sys2Proof.Machine
end

section
/-! PROOF. The packets of a payload (41_chunker.md R183 to R188, R193, R195): packet k carries the content bytes between
`alreadySent k` and `alreadySent (k + 1)`, as far as the content goes. -/

namespace Sys2Proof.Machine

theorem lt_packetCount_iff (whole index : Nat) : index < packetCount whole ↔ 128 * index < whole := by
  rw [← Nat.not_le, packetCount_le_iff, Nat.not_le]

/-! The content range of a packet (41_chunker.md R183 to R185). -/

/-- Of the 128 bytes that each packet before it carried, `pad` were header (41_chunker.md R183). -/
theorem alreadySent_eq {pad : Nat} (hpad : pad ≤ 128) (index : Nat) : alreadySent index pad = 128 * index - pad := by
  unfold alreadySent Config.bodyMax
  split_ifs <;> omega

/-- What the packets before `index` carried and what packet `index` carries are together what the packets before the next
carry (41_chunker.md R188). -/
theorem sent_add_contentLength {pad : Nat} (hpad : pad ≤ 128) (index total : Nat) :
    min total (alreadySent index pad) + contentLength index total pad = min total (alreadySent (index + 1) pad) := by
  simp only [contentLength, alreadySent_eq hpad, Config.bodyMax]
  split_ifs <;> omega

/-! The body of a packet (41_chunker.md R186). -/

section
variable (s : State) (v : Variant) (total : Nat)

theorem makeBody_zero :
    makeBody s v 0 total = header s v total ++ content s v 0 (min total (128 - headerPadding v)) := rfl

theorem makeBody_continuation {index : Nat} (h : index ≠ 0) :
    makeBody s v index total =
      content s v (alreadySent index (headerPadding v)) (contentLength index total (headerPadding v)) :=
  if_neg h

/-- The content in the first packets, followed by a continuation packet's body, is the content in one packet more. -/
theorem content_append_makeBody {index : Nat} (h : index ≠ 0) :
    content s v 0 (min total (alreadySent index (headerPadding v))) ++ makeBody s v index total =
      content s v 0 (min total (alreadySent (index + 1) (headerPadding v))) := by
  rw [makeBody_continuation s v total h, ← sent_add_contentLength (headerPadding_le_bodyMax v), content_append,
    Nat.zero_add]
  by_cases hsent : alreadySent index (headerPadding v) ≤ total
  · rw [Nat.min_eq_right hsent]
  · have hnone : contentLength index total (headerPadding v) = 0 := by
      rw [contentLength, if_neg h]
      omega
    rw [hnone, content_zero, content_zero]

/-- The bodies of the packets up to `k` are the header and the content bytes they were to carry (41_chunker.md R188). -/
theorem flatMap_makeBody_range_succ (k : Nat) :
    ((List.range (k + 1)).flatMap fun i => makeBody s v i total) =
      header s v total ++ content s v 0 (min total (alreadySent (k + 1) (headerPadding v))) := by
  induction k with
  | zero => exact (List.flatMap_singleton ..).trans (makeBody_zero s v total)
  | succ k ih =>
    rw [List.range_succ, List.flatMap_append, ih, List.flatMap_singleton, List.append_assoc,
      content_append_makeBody s v total k.succ_ne_zero]

theorem length_makeBody_zero :
    (makeBody s v 0 total).length = headerPadding v + min total (128 - headerPadding v) := by
  rw [makeBody_zero, List.length_append, length_header, length_content]

theorem length_makeBody_continuation {index : Nat} (h : index ≠ 0) :
    (makeBody s v index total).length = min (total - ((128 - headerPadding v) + 128 * (index - 1))) 128 := by
  rw [makeBody_continuation s v total h, length_content, contentLength, alreadySent, if_neg h, if_neg h, Config.bodyMax]

end

/-- Settles O41: after the last packet all of the content is sent. -/
theorem packetsReassembleTheLogicalStream : Obligations.PacketsReassembleTheLogicalStream := by
  unfold Obligations.PacketsReassembleTheLogicalStream
  intro s v total hplan
  have hpad : headerPadding v ≤ 128 := headerPadding_le_bodyMax v
  obtain ⟨k, hk⟩ : ∃ k, packetCount (total + headerPadding v) = k + 1 :=
    Nat.exists_eq_add_one.mpr (packetCountIsAtLeastOne s v total hplan).1
  have hlast := (packetCount_le_iff _ _).mp hk.le
  have hall : min total (alreadySent (k + 1) (headerPadding v)) = total := by
    rw [alreadySent_eq hpad]
    omega
  rw [hk, flatMap_makeBody_range_succ, hall]

/-- Settles O42: packet 0's body holds the header, and a continuation packet has content left to carry. -/
theorem bodyLengthsFitThePacket : Obligations.BodyLengthsFitThePacket := by
  unfold Obligations.BodyLengthsFitThePacket
  intro s v total index _ hindex
  have hpad : headerPadding v ≤ 128 := headerPadding_le_bodyMax v
  rw [lt_packetCount_iff] at hindex
  constructor
  · rintro rfl
    rw [length_makeBody_zero]
    omega
  · intro h
    rw [length_makeBody_continuation s v total h]
    omega

/-- Settles O43: the whole size lies above `128 * last` and within `128 * (last + 1)`. -/
theorem lastPacketCarriesTheRemainder : Obligations.LastPacketCarriesTheRemainder := by
  unfold Obligations.LastPacketCarriesTheRemainder
  intro s v total hplan pad last
  have hpad : pad ≤ 128 := headerPadding_le_bodyMax v
  have hcount : packetCount (total + pad) = last + 1 :=
    (Nat.sub_add_cancel (packetCountIsAtLeastOne s v total hplan).1).symm
  have hupper := (packetCount_le_iff _ _).mp hcount.le
  have hlower := (lt_packetCount_iff (total + pad) last).mp (by omega)
  simp only [contentLength, alreadySent_eq hpad, Config.bodyMax, hcount]
  split_ifs <;> omega

end Sys2Proof.Machine
end

section
/-! PROOF. The frames of the three variants under a FRAME_BUF that no frame overflows (41_chunker.md R180, R185 to R192). -/

namespace Sys2Proof.Machine

/-- With a FRAME_BUF of 275 bytes or more, GEN of a legal index completes with the packet's frame (43_framing_engine.md
R272, R273). -/
theorem exec_gen_of_largeFrameBuf {s : State} {v : Variant} {total index : Nat} (hplan : plan s = .ok (v, total))
    (hsize : total + headerPadding v ≤ 65535) (hindex : 128 * index < total + headerPadding v)
    (hbuf : 275 ≤ s.params.frameBufBytes) :
    ∃ t, exec (.gen index) s = .next t ∧ t.status.done = true ∧ SamePayload s t ∧
      t.frame = packetFrame s v index total := by
  obtain ⟨t, hexec, hdone, -, hframe, -, -⟩ := genCompletesWithThePacketFrame s v total index hplan hsize
    ((lt_packetCount_iff _ _).mpr hindex) ((length_packetFrame_le s v index total).trans hbuf)
  exact ⟨t, hexec, by rw [hdone.status], hdone.payload, hframe⟩

/-- A body with its content offset in closed form: the 128 bytes of each packet before it, less the header (41_chunker.md R183
to R186). -/
theorem makeBody_eq_ite (s : State) (v : Variant) (index total : Nat) :
    makeBody s v index total =
      if index = 0 then header s v total ++ content s v 0 (min total (128 - headerPadding v))
      else content s v (128 * index - headerPadding v) (min (total - (128 * index - headerPadding v)) 128) := by
  split_ifs with h
  · rw [h, makeBody_zero]
  · rw [makeBody_continuation s v total h, contentLength, if_neg h, alreadySent_eq (headerPadding_le_bodyMax v),
      Config.bodyMax]

/-- Settles O36: the header holds the data length, and the content is PAYLOAD_MEM. -/
theorem genOfImageWritesHeaderAndData : Obligations.GenOfImageWritesHeaderAndData := by
  unfold Obligations.GenOfImageWritesHeaderAndData
  intro s index hvariant hsize hindex hbuf
  have hplan : plan s = .ok (.image, s.dataLen) := plan_eq_ok (State.variant_image hvariant) rfl
  obtain ⟨t, hexec, hdone, hpay, hframe⟩ := exec_gen_of_largeFrameBuf hplan hsize hindex hbuf
  refine ⟨t, hexec, hdone, hpay, hframe.trans ?_⟩
  rw [packetFrame, makeBody_eq_ite]
  rfl

/-- Settles O37: the header holds the frame count and the speed, and the content is PAYLOAD_MEM. -/
theorem genOfAnimationWritesHeaderAndData : Obligations.GenOfAnimationWritesHeaderAndData := by
  unfold Obligations.GenOfAnimationWritesHeaderAndData
  intro s index hvariant hsize hindex hbuf
  have hplan : plan s = .ok (.animation, s.dataLen) := plan_eq_ok (State.variant_animation hvariant) rfl
  obtain ⟨t, hexec, hdone, hpay, hframe⟩ := exec_gen_of_largeFrameBuf hplan hsize hindex hbuf
  refine ⟨t, hexec, hdone, hpay, hframe.trans ?_⟩
  rw [packetFrame, makeBody_eq_ite]
  rfl

/-- The header of a Text payload is 0 but for its total, in either layout (41_chunker.md R189, R190). -/
theorem header_text (s : State) (total : Nat) :
    header s .text total =
      match s.params.hdrLayout with
      | .reservedFirst => List.replicate 105 0x00#8 ++ be16 total
      | .fieldsFirst => List.replicate 81 0x00#8 ++ be16 total ++ List.replicate 24 0x00#8 := by
  unfold header
  cases s.params.hdrLayout <;> rfl

/-- Settles O38: under GATED the total is the stream's length, so the content of every packet lies within the stream. -/
theorem genOfTextWritesHeaderAndStream : Obligations.GenOfTextWritesHeaderAndStream := by
  unfold Obligations.GenOfTextWritesHeaderAndStream
  intro s index hvariant hrule hvalid hsize hindex hbuf
  have hplan : plan s = .ok (.text, (textStream s).length) := by
    rw [plan_of_validText hvariant hvalid, textTotal, hrule, length_textStream]
  obtain ⟨t, hexec, hdone, hpay, hframe⟩ := exec_gen_of_largeFrameBuf hplan hsize hindex hbuf
  refine ⟨t, hexec, hdone, hpay, hframe.trans ?_⟩
  have hfirst : content s .text 0 (min (textStream s).length 21) = (textStream s).take 21 := by
    rw [content, window_eq_take s (by omega), List.drop_zero, Nat.min_comm, ← List.take_eq_take_min]
  have hnext (a : Nat) :
      content s .text a (min ((textStream s).length - a) 128) = ((textStream s).drop a).take 128 := by
    rw [content, window_eq_take s (by omega), Nat.min_comm, ← List.length_drop, ← List.take_eq_take_min]
  rw [packetFrame, makeBody_eq_ite, header_text]
  simp only [headerPadding, Config.padText, Nat.reduceSub, hfirst, hnext]
  rfl

end Sys2Proof.Machine
end

section
/-! PROOF. The glyph renderer (42_glyph_renderer.md R220 to R235): what a lookup answers, what a trimmed glyph keeps, which
passes a colour takes part in, and the length of the Text stream. -/

namespace Sys2Proof.Machine

/-! Glyph lookup (42_glyph_renderer.md R220 to R222). -/

section
variable {s : State} {c : Word}

theorem glyph_of_custom (h : s.cfgCharset = 1#1) : glyph s c = glyphCustom s c := by
  simp [glyph, State.custom, h]

theorem glyph_of_builtin (h : s.cfgCharset = 0#1) : glyph s c = glyphBuiltin s c := by
  simp [glyph, State.custom, h]

/-- The first match wins when a code occurs twice. -/
theorem listPosition_of_firstMatch {pos : Nat} (hpos : pos < s.charlistLen) (hmatch : s.listCode pos = c)
    (hfirst : ∀ j, j < pos → s.listCode j ≠ c) : listPosition s c = pos := by
  have hfind : ((List.range s.charlistLen).find? fun k => s.listCode k == c) = some pos :=
    List.find?_range_eq_some.mpr ⟨by simpa using hmatch, List.mem_range.mpr hpos, by simpa using hfirst⟩
  rw [listPosition, hfind, Option.getD_some]

theorem listPosition_of_absent (habsent : ∀ j, j < s.charlistLen → s.listCode j ≠ c) : listPosition s c = 0 := by
  have hfind : ((List.range s.charlistLen).find? fun k => s.listCode k == c) = none :=
    List.find?_range_eq_none.mpr (by simpa using habsent)
  rw [listPosition, hfind, Option.getD_none]

/-- With a character list only the slot of the code's position can be missing. -/
theorem glyphCustom_of_list (h : 0 < s.charlistLen) :
    glyphCustom s c =
      if min s.cfgTableLen.toNat 2097152 < 32 * (listPosition s c + 1) then .error .glyphRange
      else .ok (s.memRead tableBase (32 * listPosition s c) 32) :=
  if_neg h.ne'

end

/-- Settles O53: the slot of a code lies in the table or not. -/
theorem builtinLookupReadsTheRomSlot : Obligations.BuiltinLookupReadsTheRomSlot := by
  unfold Obligations.BuiltinLookupReadsTheRomSlot
  exact fun s c => ⟨fun h => if_pos h, fun h => if_neg (Nat.not_lt.mpr h)⟩

/-- Settles O52: either case of the position is the model's list position. -/
theorem customLookupUsesTheFirstMatchOrPositionZero : Obligations.CustomLookupUsesTheFirstMatchOrPositionZero := by
  unfold Obligations.CustomLookupUsesTheFirstMatchOrPositionZero
  refine fun s c => ⟨fun hempty => if_pos hempty, fun pos hlist hpos => ?_⟩
  have heq : listPosition s c = pos := by
    obtain ⟨hlt, hmatch, hfirst⟩ | ⟨rfl, habsent⟩ := hpos
    · exact listPosition_of_firstMatch hlt hmatch hfirst
    · exact listPosition_of_absent habsent
  rw [glyphCustom_of_list hlist, heq]

/-! Column trim (42_glyph_renderer.md R223 to R226). -/

section
variable {g : List Byte}

theorem pairNonzero_iff (hlen : g.length = 32) {k : Nat} (hk : k < 16) :
    pairNonzero g k = true ↔ ¬(g[2 * k]? = some 0x00#8 ∧ g[2 * k + 1]? = some 0x00#8) := by
  have h0 : 2 * k < g.length := by omega
  have h1 : 2 * k + 1 < g.length := by omega
  simp [pairNonzero, List.getD_eq_getElem?_getD, h0, h1, imp_iff_not_or]

/-- A glyph whose every pair is zero trims to a blank span. -/
theorem trim_of_blank (h : ∀ k, k < 16 → ¬pairNonzero g k = true) : trim g = zeros Config.blankSpan := by
  have hnone : nonzeroPairs g = [] := List.filter_eq_nil_iff.mpr fun k hk => h k (List.mem_range.mp hk)
  rw [trim, hnone]

theorem head?_nonzeroPairs {kf : Nat} (hkf : kf < 16) (hfirst : pairNonzero g kf = true)
    (hbefore : ∀ k, k < kf → ¬pairNonzero g k = true) : (nonzeroPairs g).head? = some kf := by
  rw [nonzeroPairs, List.head?_filter, List.find?_range_eq_some]
  exact ⟨hfirst, List.mem_range.mpr hkf, by simpa using hbefore⟩

theorem getLast?_nonzeroPairs {kl : Nat} (hkl : kl < 16) (hlast : pairNonzero g kl = true)
    (hafter : ∀ k, kl < k → k < 16 → ¬pairNonzero g k = true) : (nonzeroPairs g).getLast? = some kl := by
  have hsplit : List.range 16 = List.range kl ++ [kl] ++ (List.range (15 - kl)).map (kl + 1 + ·) := by
    rw [← List.range_succ, ← List.range_add, show kl + 1 + (15 - kl) = 16 by omega]
  have hnone : ((List.range (15 - kl)).map (kl + 1 + ·)).filter (pairNonzero g) = [] := by
    refine List.filter_eq_nil_iff.mpr fun k hk => ?_
    obtain ⟨d, hd, rfl⟩ := List.mem_map.mp hk
    rw [List.mem_range] at hd
    exact hafter _ (by omega) (by omega)
  rw [nonzeroPairs, hsplit, List.filter_append, List.filter_append, hnone, List.append_nil,
    List.filter_singleton, hlast, cond_true, List.getLast?_concat]

/-- A glyph trims to its bytes from the first to the last of its non-zero pairs. -/
theorem trim_of_ends {kf kl : Nat} (hhead : (nonzeroPairs g).head? = some kf)
    (hlast : (nonzeroPairs g).getLast? = some kl) : trim g = slice g (2 * kf) (2 * kl + 2) := by
  obtain ⟨rest, hpairs⟩ := List.head?_eq_some_iff.mp hhead
  rw [hpairs] at hlast
  rw [trim, hpairs]
  simp only [List.getLastD_eq_getLast?, hlast, Option.getD_some]

end

/-- Settles O49: the ends of the list of non-zero pairs are the first and the last of them. -/
theorem trimKeepsFirstToLastNonzeroPair : Obligations.TrimKeepsFirstToLastNonzeroPair := by
  unfold Obligations.TrimKeepsFirstToLastNonzeroPair
  refine fun g hlen => ⟨fun hblank => ?_, fun kf kl hle hkl houtside hfirst hlast => ?_⟩
  · have htrim := trim_of_blank fun k hk => mt (pairNonzero_iff hlen hk).mp (not_not.mpr (hblank k hk))
    exact ⟨htrim, by rw [htrim]; rfl⟩
  · have hkf : kf < 16 := by omega
    have hzero : ∀ k, k < 16 → (k < kf ∨ kl < k) → ¬pairNonzero g k = true :=
      fun k hk hout => mt (pairNonzero_iff hlen hk).mp (not_not.mpr (houtside k hk hout))
    have htrim : trim g = slice g (2 * kf) (2 * kl + 2) := trim_of_ends
      (head?_nonzeroPairs hkf ((pairNonzero_iff hlen hkf).mpr hfirst) fun k hk => hzero k (by omega) (.inl hk))
      (getLast?_nonzeroPairs hkl ((pairNonzero_iff hlen hkl).mpr hlast) fun k hk hk' => hzero k hk' (.inr hk))
    have hspan : (trim g ++ zeros Config.terminator).length = 2 * (kl - kf + 1) + 2 := by
      rw [htrim, List.length_append, length_slice, length_zeros, Config.terminator]
      omega
    exact ⟨htrim, hspan, by omega, by omega, by omega⟩

/-! Colour and channel gate (42_glyph_renderer.md R227 to R230). -/

/-- The tags of the colours that contain a channel: the channel's column of the table of 42_glyph_renderer.md R227. -/
def Channel.tags : Channel → List Nat
  | .red => [0, 1, 4, 5]
  | .green => [0, 2, 4, 6]
  | .blue => [0, 3, 5, 6]

theorem tagContains_iff {tag : Byte} (htag : tag.toNat ≤ 6) (p : Channel) :
    tagContains tag p = true ↔ tag.toNat ∈ p.tags := by
  have htable : ∀ n ≤ 6, tagContains (BitVec.ofNat 8 n) p = true ↔ n ∈ p.tags := by
    cases p with
    | red | green | blue => decide
  simpa using htable tag.toNat htag

theorem gatedSpan_eq_ite {s : State} {i : Nat} (htag : (s.colorTag i).toNat ≤ 6) (p : Channel) :
    gatedSpan s i p = if (s.colorTag i).toNat ∈ p.tags then span s i else List.replicate 16 0x00#8 := by
  simp only [gatedSpan, tagContains_iff htag]
  rfl

/-- Settles O50: the three columns of the table. -/
theorem gatedSpanFollowsTheChannelTable : Obligations.GatedSpanFollowsTheChannelTable := by
  unfold Obligations.GatedSpanFollowsTheChannelTable
  exact fun s i htag => ⟨gatedSpan_eq_ite htag .red, gatedSpan_eq_ite htag .green, gatedSpan_eq_ite htag .blue⟩

/-! The Text stream (42_glyph_renderer.md R231 to R235). -/

theorem takeD_eq_take_append_replicate {α : Type} (m : Nat) (l : List α) (d : α) :
    l.takeD m d = l.take m ++ List.replicate (m - l.length) d := by
  induction m generalizing l with
  | zero => simp
  | succ m ih => cases l <;> simp [ih, List.replicate_succ]

/-- Settles O44: the loop's window (window_eq_takeD), cut where the stream ends. -/
theorem windowIsTheZeroExtendedStreamSlice : Obligations.WindowIsTheZeroExtendedStreamSlice := by
  unfold Obligations.WindowIsTheZeroExtendedStreamSlice
  intro s a m
  rw [window_eq_takeD, takeD_eq_take_append_replicate, List.length_drop]

theorem length_gatedSpan (s : State) (i : Nat) (p : Channel) :
    (gatedSpan s i p).length = if tagContains (s.colorTag i) p then (span s i).length else 16 := by
  rw [gatedSpan, apply_ite List.length, length_zeros, Config.suppressedSpan]

/-- The stream runs pass by pass; its length may be counted character by character. -/
theorem length_textStream_eq_sum (s : State) :
    (textStream s).length =
      ((List.range s.phraseLen).map fun i => (passes.map fun p => (gatedSpan s i p).length).sum).sum := by
  simp [length_textStream, gatedSpans, passes, List.sum_map_add, Function.comp_def]

/-- White contains all channels. -/
theorem tagContains_white (p : Channel) : tagContains 0x00#8 p = true := by
  cases p <;> rfl

theorem length_textStream_of_white {s : State} (h : ∀ i, i < s.phraseLen → s.colorTag i = 0x00#8) :
    (textStream s).length = 3 * spanSum s := by
  have hchar : ∀ i ∈ List.range s.phraseLen,
      (passes.map fun p => (gatedSpan s i p).length).sum = 3 * (span s i).length := by
    intro i hi
    simp only [length_gatedSpan, h i (List.mem_range.mp hi), tagContains_white, if_true, passes, List.map_cons,
      List.map_nil, List.sum_cons, List.sum_nil]
    omega
  rw [length_textStream_eq_sum, List.map_congr_left hchar, List.sum_map_mul_left, spanSum]

/-- The two states have the same phrase and the same glyphs: the colours, and the payload of the other variants, may differ
(42_glyph_renderer.md R235). -/
structure SameGlyphs (s t : State) : Prop where
  phraseLen : t.phraseLen = s.phraseLen
  charset : t.cfgCharset = s.cfgCharset
  charlistLen : t.charlistLen = s.charlistLen
  tableLen : t.cfgTableLen = s.cfgTableLen
  bytes : ∀ a, phraseBase ≤ a → a < frameBase → t.byteAt a = s.byteAt a

section
variable {s t : State} (h : SameGlyphs s t)
include h

theorem SameGlyphs.wordAt_eq {a : Nat} (hlow : phraseBase ≤ a) (hhigh : a + 4 ≤ frameBase) :
    t.wordAt a = s.wordAt a := by
  have hbyte : ∀ d < 4, t.byteAt (a + d) = s.byteAt (a + d) := fun d hd => h.bytes _ (by omega) (by omega)
  simp only [State.wordAt, h.bytes a hlow (by omega), hbyte 1 (by decide), hbyte 2 (by decide), hbyte 3 (by decide)]

theorem SameGlyphs.memRead_eq {base a n : Nat} (hlow : phraseBase ≤ base) (hhigh : base + (a + n) ≤ frameBase) :
    t.memRead base a n = s.memRead base a n := by
  refine List.map_congr_left fun k hk => ?_
  rw [List.mem_range] at hk
  exact h.bytes _ (by omega) (by omega)

theorem SameGlyphs.listPosition_eq (c : Word) : listPosition t c = listPosition s c := by
  have hcode : ∀ k ∈ List.range s.charlistLen, (t.listCode k == c) = (s.listCode k == c) := by
    intro k hk
    have hmax : s.charlistLen < 65536 := s.cfgCharlistLen.isLt
    rw [List.mem_range] at hk
    rw [State.listCode, State.listCode,
      h.wordAt_eq (by simp only [phraseBase, charlistBase]; omega) (by simp only [charlistBase, frameBase]; omega)]
  rw [listPosition, listPosition, h.charlistLen, List.find?_congr hcode]

theorem SameGlyphs.glyphCustom_eq (c : Word) : glyphCustom t c = glyphCustom s c := by
  obtain hempty | hlist := s.charlistLen.eq_zero_or_pos
  · exact (if_pos (h.charlistLen.trans hempty)).trans (if_pos hempty).symm
  · rw [glyphCustom_of_list hlist, glyphCustom_of_list (h.charlistLen ▸ hlist), h.tableLen, h.listPosition_eq]
    refine ite_congr rfl (fun _ => rfl) fun hslot => ?_
    rw [h.memRead_eq (by decide) (by simp only [tableBase, frameBase]; omega)]

theorem SameGlyphs.glyphBuiltin_eq (c : Word) : glyphBuiltin t c = glyphBuiltin s c := by
  refine ite_congr rfl (fun hslot => ?_) fun _ => rfl
  rw [h.memRead_eq (by decide)
    (by simp only [romBase, frameBase, Config.builtinGlyphs, Config.glyphBytes] at hslot ⊢; omega)]

theorem SameGlyphs.glyph_eq (c : Word) : glyph t c = glyph s c := by
  rw [glyph, glyph, State.custom, State.custom, h.charset, h.glyphCustom_eq, h.glyphBuiltin_eq]

theorem SameGlyphs.span_eq {i : Nat} (hi : i < s.phraseLen) : span t i = span s i := by
  have hmax : s.phraseLen < 65536 := s.cfgPhraseLen.isLt
  have hcode : t.charCode i = s.charCode i :=
    h.wordAt_eq (by omega) (by simp only [phraseBase, frameBase]; omega)
  rw [span, span, hcode, h.glyph_eq]

theorem SameGlyphs.spanSum_eq : spanSum t = spanSum s := by
  rw [spanSum, spanSum, h.phraseLen]
  refine congrArg List.sum (List.map_congr_left fun i hi => ?_)
  rw [h.span_eq (List.mem_range.mp hi)]

end

/-- Settles O51: the stream's length is counted by character, and the spans are read from the phrase and the glyphs alone. -/
theorem streamLengthSumsGatedSpans : Obligations.StreamLengthSumsGatedSpans := by
  unfold Obligations.StreamLengthSumsGatedSpans
  intro s _
  refine ⟨?_, length_textStream_of_white, fun t hphrase hcharset hlist htable hbytes => ?_⟩
  · simp only [length_textStream_eq_sum, length_gatedSpan]
  · exact SameGlyphs.spanSum_eq ⟨hphrase, hcharset, hlist, htable, fun a hlow hhigh => hbytes a hhigh (.inr hlow)⟩

end Sys2Proof.Machine
end

section
/-! PROOF. The errors of the validation scan (42_glyph_renderer.md R232, 60_exceptions.md R306 to R308): the first failing
character in phrase order decides the plan, and with it the completion of every command that makes one. -/

namespace Sys2Proof.Machine

section
variable {s : State} {i : Nat}

theorem scanChar_of_badTag (hcolors : 0 < s.colorsLen) (htag : 6 < (s.colorTag i).toNat) :
    scanChar s i = some { error := .badColor, info := i } := by
  rw [scanChar, if_neg hcolors.ne', if_pos htag]

theorem scanChar_of_glyph_error {e : CmdError} (hcolors : 0 < s.colorsLen) (htag : (s.colorTag i).toNat ≤ 6)
    (hglyph : glyph s (s.charCode i) = .error e) : scanChar s i = some { error := e, info := i } := by
  rw [scanChar, if_neg hcolors.ne', if_neg (Nat.not_lt.mpr htag), hglyph]

theorem validationScan_of_first {r : Raise} (hi : i < s.phraseLen) (hpass : ∀ j, j < i → scanChar s j = none)
    (hfail : scanChar s i = some r) : validationScan s = some r := by
  obtain ⟨d, hd⟩ := Nat.exists_eq_add_of_lt hi
  have hbefore : (List.range i).findSome? (scanChar s) = none :=
    List.findSome?_eq_none_iff.mpr fun j hj => hpass j (List.mem_range.mp hj)
  rw [validationScan, hd, Nat.add_right_comm, List.range_add, List.range_succ, List.findSome?_append,
    List.findSome?_append, hbefore, List.findSome?_singleton, hfail, Option.none_or, Option.some_or]

/-- What the scan raises is what the plan answers for a Text payload (60_exceptions.md R312). -/
theorem plan_of_scanError {r : Raise} (hvariant : s.cfgVariant = 0#2) (hscan : validationScan s = some r) :
    plan s = .error r := by
  simp only [plan, State.variant_text hvariant, payloadCheck, hscan]

/-- Every command but QPAD ends in the plan's error (40_planner.md R156, R158, 41_chunker.md R180). -/
theorem exec_of_planError {r : Raise} (hplan : plan s = .error r) {c : Instr} (hc : c ≠ .qpad) :
    ∃ t, exec c s = .next t ∧ ErrorCompletion s t r.error.code r.info := by
  obtain ⟨hquery, -⟩ := s.raise_query_spec r
  obtain ⟨hgen, -⟩ := s.raise_gen_spec r
  cases c with
  | qtotal => exact ⟨_, by simp only [exec, execQtotal, hplan], hquery⟩
  | qpad => exact absurd rfl hc
  | qcount => exact ⟨_, by simp only [exec, execQcount, hplan], hquery⟩
  | gen index => exact ⟨_, exec_gen_of_error (by simp only [generate, hplan]), hgen⟩

end

/-- Settles O30: each clause is a check that character i fails; those before it pass, so the scan raises what it raises. -/
theorem firstBadCharacterDecidesTheScanError : Obligations.FirstBadCharacterDecidesTheScanError := by
  unfold Obligations.FirstBadCharacterDecidesTheScanError
  intro s c i hvariant hcolors hi hc hpass
  have hbefore : ∀ j, j < i → scanChar s j = none :=
    fun j hj => (scanChar_eq_none_iff s j).mpr ⟨hcolors, hpass j hj⟩
  have hend : ∀ {e : CmdError}, scanChar s i = some { error := e, info := i } →
      ∃ t, exec c s = .next t ∧ ErrorCompletion s t e.code i :=
    fun hfail => exec_of_planError (plan_of_scanError hvariant (validationScan_of_first hi hbefore hfail)) hc
  obtain ⟨hempty, hlookup⟩ := customLookupUsesTheFirstMatchOrPositionZero s (s.charCode i)
  obtain ⟨-, hnoSlot⟩ := builtinLookupReadsTheRomSlot s (s.charCode i)
  refine ⟨fun htag => ?color, fun htag hcustom hlist => ?emptyList, fun pos htag hcustom hlist hpos hshort => ?noSlot,
    fun htag hbuiltin hcode => ?noCode⟩
  case color => exact hend (scanChar_of_badTag hcolors htag)
  case emptyList =>
    have hnone : s.charlistLen = 0 := congrArg BitVec.toNat hlist
    exact hend (scanChar_of_glyph_error hcolors htag ((glyph_of_custom hcustom).trans (hempty hnone)))
  case noSlot =>
    have hglyph := hlookup pos hlist hpos
    rw [if_pos hshort] at hglyph
    exact hend (scanChar_of_glyph_error hcolors htag ((glyph_of_custom hcustom).trans hglyph))
  case noCode =>
    exact hend (scanChar_of_glyph_error hcolors htag ((glyph_of_builtin hbuiltin).trans (hnoSlot hcode)))

end Sys2Proof.Machine
end

section
/-! PROOF. Escaping (43_framing_engine.md R264, R265, R271): what it makes of one byte, its inverse and its length, and which
bytes can stand in an escaped sequence. -/

namespace Sys2Proof.Machine

theorem isControl_iff (b : Byte) : isControl b = true ↔ b = 0x01#8 ∨ b = 0x02#8 ∨ b = 0x03#8 := by
  simp [isControl, or_assoc]

theorem not_isControl_iff (b : Byte) : ¬isControl b = true ↔ b ≠ 0x01#8 ∧ b ≠ 0x02#8 ∧ b ≠ 0x03#8 := by
  rw [isControl_iff, not_or, not_or]

theorem escByte_of_control {b : Byte} (h : isControl b = true) : escByte b = [Config.esc, b ^^^ Config.escMask] :=
  if_pos h

theorem escByte_of_plain {b : Byte} (h : ¬isControl b = true) : escByte b = [b] :=
  if_neg h

theorem escape_cons (b : Byte) (rest : List Byte) : escape (b :: rest) = escByte b ++ escape rest :=
  List.flatMap_cons

/-! The inverse. -/

theorem unescape_esc (c : Byte) (rest : List Byte) :
    unescape (Config.esc :: c :: rest) = (c ^^^ Config.escMask) :: unescape rest := by
  rw [unescape, if_pos rfl]

theorem unescape_plain {b : Byte} (h : b ≠ Config.esc) (rest : List Byte) :
    unescape (b :: rest) = b :: unescape rest := by
  cases rest with
  | nil => rfl
  | cons c rest => rw [unescape, if_neg h]

/-- The escape of one byte un-escapes to that byte: the mask undoes itself, and a byte that stands for itself is no escape
byte. -/
theorem unescape_escByte_append (b : Byte) (rest : List Byte) : unescape (escByte b ++ rest) = b :: unescape rest := by
  by_cases h : isControl b = true
  · have hmask : b ^^^ Config.escMask ^^^ Config.escMask = b := by
      rw [BitVec.xor_assoc, BitVec.xor_self, BitVec.xor_zero]
    rw [escByte_of_control h, List.cons_append, List.singleton_append, unescape_esc, hmask]
  · obtain ⟨-, hesc, -⟩ := (not_isControl_iff b).mp h
    rw [escByte_of_plain h, List.singleton_append, unescape_plain hesc]

theorem unescape_escape (l : List Byte) : unescape (escape l) = l := by
  induction l with
  | nil => rfl
  | cons b rest ih => rw [escape_cons, unescape_escByte_append, ih]

/-! The length. -/

theorem length_escape (l : List Byte) :
    (escape l).length = l.length + l.countP fun b => b = 0x01#8 ∨ b = 0x02#8 ∨ b = 0x03#8 := by
  induction l with
  | nil => rfl
  | cons b rest ih =>
    rw [escape_cons, List.length_append, ih, List.length_cons, List.countP_cons]
    simp only [decide_eq_true_eq, ← isControl_iff]
    by_cases h : isControl b = true
    · rw [escByte_of_control h, if_pos h, List.length_cons, List.length_singleton]
      omega
    · rw [escByte_of_plain h, if_neg h, List.length_singleton]
      omega

/-- Settles O45: an escaped sequence is read back byte by byte, and each control byte takes two. -/
theorem unescapeInvertsEscape : Obligations.UnescapeInvertsEscape := by
  unfold Obligations.UnescapeInvertsEscape
  exact fun l => ⟨unescape_escape l, length_escape l⟩

/-! The bytes of an escaped sequence. -/

/-- An escaped sequence holds no 01 and no 03, and each of its 02 begins an escape pair (43_framing_engine.md R264, R274). -/
def EscapedBytes (l : List Byte) : Prop :=
  ∀ k b, l[k]? = some b → b ≠ 0x01#8 ∧ b ≠ 0x03#8 ∧
    (b = 0x02#8 → l[k + 1]? = some 0x05#8 ∨ l[k + 1]? = some 0x06#8 ∨ l[k + 1]? = some 0x07#8)

theorem EscapedBytes.nil : EscapedBytes [] := by
  intro k b hb
  cases hb

theorem EscapedBytes.cons_plain {a : Byte} {l : List Byte} (ha : ¬isControl a = true) (h : EscapedBytes l) :
    EscapedBytes (a :: l) := by
  intro k b hb
  cases k with
  | zero =>
    cases hb
    obtain ⟨h1, h2, h3⟩ := (not_isControl_iff a).mp ha
    exact ⟨h1, h3, fun h => absurd h h2⟩
  | succ k => exact h k b hb

theorem EscapedBytes.cons_pair {c : Byte} {l : List Byte} (hc : c = 0x05#8 ∨ c = 0x06#8 ∨ c = 0x07#8)
    (h : EscapedBytes l) : EscapedBytes (0x02#8 :: c :: l) := by
  intro k b hb
  cases k with
  | zero =>
    cases hb
    exact ⟨by decide, by decide, fun _ => by simpa using hc⟩
  | succ k =>
    have hplain : ¬isControl c = true := by
      obtain rfl | rfl | rfl := hc <;> decide
    exact h.cons_plain hplain k b hb

/-- The mask takes the three control bytes to 05, 06 and 07 (43_framing_engine.md R264). -/
theorem xor_escMask_of_control {b : Byte} (h : isControl b = true) :
    b ^^^ Config.escMask = 0x05#8 ∨ b ^^^ Config.escMask = 0x06#8 ∨ b ^^^ Config.escMask = 0x07#8 := by
  obtain rfl | rfl | rfl := (isControl_iff b).mp h <;> decide

theorem escapedBytes_escape (l : List Byte) : EscapedBytes (escape l) := by
  induction l with
  | nil => exact EscapedBytes.nil
  | cons b rest ih =>
    rw [escape_cons]
    by_cases h : isControl b = true
    · rw [escByte_of_control h]
      exact ih.cons_pair (xor_escMask_of_control h)
    · rw [escByte_of_plain h]
      exact ih.cons_plain h

end Sys2Proof.Machine
end

section
/-! PROOF. The frame around a sub-packet (43_framing_engine.md R260 to R270): its three-byte start, the escaped content type
and sub-packet, and its end marker. -/

namespace Sys2Proof.Machine

theorem length_makeSubpacket (whole index : Nat) (body : List Byte) :
    (makeSubpacket whole index body).length = 7 + body.length := by
  simp [makeSubpacket, subpacketPrefix]
  omega

theorem be16_eq_mod (v : Nat) : be16 v = [BitVec.ofNat 8 (v / 256), BitVec.ofNat 8 (v % 256)] := by
  have hlow : BitVec.ofNat 8 v = BitVec.ofNat 8 (v % 256) := BitVec.eq_of_toNat_eq (by simp)
  rw [be16, hlow]

/-- The length before escaping is less than 256, so the first of its two bytes is 0 (43_framing_engine.md R268, R269). -/
theorem packetFrame_eq (s : State) (v : Variant) (index total : Nat) :
    packetFrame s v index total =
      [0x01#8, 0x00#8, BitVec.ofNat 8 (8 + (makeBody s v index total).length)] ++
        escape (contentType v :: makeSubpacket (total + headerPadding v) index (makeBody s v index total)) ++
        [0x03#8] := by
  have hbody : (makeBody s v index total).length ≤ 128 := length_makeBody_le s v index total
  have hlen : 1 + (7 + (makeBody s v index total).length) = 8 + (makeBody s v index total).length := by omega
  have hhigh : (8 + (makeBody s v index total).length) / 256 = 0 := by omega
  rw [packetFrame, makeFrame, length_makeSubpacket, hlen, be16, hhigh]
  rfl

/-- The frame is the envelope's four bytes, the content type and the sub-packet, and one byte more for each control byte
(43_framing_engine.md R270). -/
theorem length_packetFrame (s : State) (v : Variant) (index total : Nat) :
    (packetFrame s v index total).length = 4 + (8 + (makeBody s v index total).length) +
      (contentType v :: makeSubpacket (total + headerPadding v) index (makeBody s v index total)).countP
        fun b => b = 0x01#8 ∨ b = 0x02#8 ∨ b = 0x03#8 := by
  rw [packetFrame_eq, List.length_append, List.length_append, length_escape]
  simp only [List.length_cons, List.length_nil, length_makeSubpacket]
  omega

/-- What stands between the start and the end marker. -/
theorem dropLast_drop_packetFrame (s : State) (v : Variant) (index total : Nat) :
    ((packetFrame s v index total).drop 3).dropLast =
      escape (contentType v :: makeSubpacket (total + headerPadding v) index (makeBody s v index total)) := by
  rw [packetFrame_eq]
  exact List.dropLast_concat

theorem take_packetFrame (s : State) (v : Variant) (index total : Nat) :
    (packetFrame s v index total).take 3 =
      [0x01#8, 0x00#8, BitVec.ofNat 8 (8 + (makeBody s v index total).length)] := by
  rw [packetFrame_eq]
  rfl

/-- The length byte of a packet's frame, from 8 to 136, is no control byte (43_framing_engine.md R274). -/
theorem not_isControl_length {n : Nat} (h : n ≤ 128) : ¬isControl (BitVec.ofNat 8 (8 + n)) = true := by
  rw [not_isControl_iff]
  refine ⟨?_, ?_, ?_⟩ <;> bv_omega

end Sys2Proof.Machine
end

section
/-! PROOF. The completions of GEN, read backwards (41_chunker.md R180, R198; 43_framing_engine.md R272 to R274;
60_exceptions.md R312): what a completed GEN says of its payload, its index and its frame. -/

namespace Sys2Proof.Machine

section
variable {s t : State} {index : Nat}

theorem exec_gen_cases (h : exec (.gen index) s = .next t) :
    (∃ r, generate s index = .error r ∧ t = s.raise true r) ∨
      ∃ frame, generate s index = .ok frame ∧ t = (s.storeFrame frame).succeed frame.length := by
  cases hgen : generate s index with
  | error r =>
    cases (exec_gen_of_error hgen).symm.trans h
    exact .inl ⟨r, rfl, rfl⟩
  | ok frame =>
    cases (exec_gen_of_ok hgen).symm.trans h
    exact .inr ⟨frame, rfl, rfl⟩

/-- GEN yields a frame exactly when the plan and its three checks pass (41_chunker.md R180, R182). -/
theorem generate_eq_ok_iff {frame : List Byte} :
    generate s index = .ok frame ↔
      ∃ v total, plan s = .ok (v, total) ∧ total + headerPadding v ≤ 65535 ∧
        index < packetCount (total + headerPadding v) ∧
        (packetFrame s v index total).length ≤ s.params.frameBufBytes ∧ packetFrame s v index total = frame := by
  constructor
  · intro h
    obtain ⟨v, total, hplan, rfl, hfits⟩ := generate_eq_ok h
    rw [generate_of_plan hplan] at h
    split_ifs at h with hsize hindex
    exact ⟨v, total, hplan, Nat.le_of_not_lt hsize, Nat.lt_of_not_le hindex, hfits, rfl⟩
  · rintro ⟨v, total, hplan, hsize, hindex, hfits, rfl⟩
    exact generate_of_fitting hplan hsize hindex hfits

/-- A GEN that ends in DONE has an accepted payload and a legal index, and leaves the packet's frame in FRAME_BUF. -/
theorem exec_gen_done (h : exec (.gen index) s = .next t) (hdone : t.status.done = true) :
    ∃ v total, plan s = .ok (v, total) ∧ total + headerPadding v ≤ 65535 ∧
      index < packetCount (total + headerPadding v) ∧ t.frame = packetFrame s v index total := by
  obtain ⟨r, -, rfl⟩ | ⟨frame, hgen, rfl⟩ := exec_gen_cases h
  · cases hdone
  · obtain ⟨v, total, hplan, hsize, hindex, -, rfl⟩ := generate_eq_ok_iff.mp hgen
    have hmax := length_packetFrame_le s v index total
    obtain ⟨-, -, hframe, -, -⟩ := s.genSucceed_spec (packetFrame s v index total) (by omega)
    exact ⟨v, total, hplan, hsize, hindex, hframe⟩

/-! What the plan answers (60_exceptions.md R304 to R308). -/

theorem glyph_error_code_le {c : Word} {e : CmdError} (h : glyph s c = .error e) : e.code.toNat ≤ 6 := by
  by_cases hcustom : s.custom = true
  · simp only [glyph, if_pos hcustom, glyphCustom] at h
    split_ifs at h with hempty hshort
    · cases h
      decide
    · cases h
      decide
  · simp only [glyph, if_neg hcustom, glyphBuiltin] at h
    split_ifs at h with hcode
    cases h
    decide

theorem scanChar_error_code_le {i : Nat} {r : Raise} (h : scanChar s i = some r) : r.error.code.toNat ≤ 6 := by
  unfold scanChar at h
  split_ifs at h
  · cases h
    exact (by decide : CmdError.noColors.code.toNat ≤ 6)
  · cases h
    exact (by decide : CmdError.badColor.code.toNat ≤ 6)
  · split at h
    · cases h
    · rename_i e hglyph
      cases h
      exact glyph_error_code_le hglyph

/-- The errors before SIZE, INDEX and FRAME_OVERFLOW are those of the variant and of the validation scan. -/
theorem plan_error_code_le {r : Raise} (h : plan s = .error r) : r.error.code.toNat ≤ 6 := by
  unfold plan at h
  split at h
  · cases h
    decide
  · rename_i v _
    split at h
    · rename_i hcheck
      cases h
      cases v with
      | text =>
        obtain ⟨i, -, hscan⟩ := List.exists_of_findSome?_eq_some hcheck
        exact scanChar_error_code_le hscan
      | image => cases hcheck
      | animation => cases hcheck
    · cases h

theorem plan_variant {v : Variant} {total : Nat} (h : plan s = .ok (v, total)) : s.variant = some v := by
  unfold plan at h
  split at h
  · cases h
  · rename_i w hw
    split at h
    · cases h
    · cases h
      exact hw

/-- The content type is the one CFG_VARIANT stands for (30_encoding.md R121, R123). -/
theorem contentType_of_variant {v : Variant} (h : s.variant = some v) :
    contentType v = if s.cfgVariant = 0#2 then 0x02#8 else if s.cfgVariant = 1#2 then 0x03#8 else 0x04#8 := by
  by_cases hreserved : s.cfgVariant = 3#2
  · simp [State.variant, hreserved] at h
  · obtain hv | hv | hv := State.cfgVariant_cases hreserved
    · cases (State.variant_text hv).symm.trans h
      rw [hv]
      rfl
    · cases (State.variant_image hv).symm.trans h
      rw [hv]
      rfl
    · cases (State.variant_animation hv).symm.trans h
      rw [hv]
      rfl

/-- The packets of a payload are none of them empty (41_chunker.md R193). -/
theorem length_makeBody_pos {v : Variant} {total : Nat} (hplan : plan s = .ok (v, total))
    (hindex : index < packetCount (total + headerPadding v)) : 1 ≤ (makeBody s v index total).length := by
  obtain ⟨hzero, hnext⟩ := bodyLengthsFitThePacket s v total index hplan hindex
  by_cases h : index = 0
  · obtain ⟨-, hpad, -, -⟩ := hzero h
    exact (headerPadding_pos v).trans_le hpad
  · obtain ⟨-, hpos, -⟩ := hnext h
    exact hpos

/-- No frame overflows a FRAME_BUF of 275 bytes (43_framing_engine.md R272, R273). -/
theorem generate_error_ne_frameOverflow {r : Raise} (hbuf : 275 ≤ s.params.frameBufBytes)
    (h : generate s index = .error r) : r.error.code ≠ 9#4 := by
  cases hplan : plan s with
  | error e =>
    simp only [generate, hplan] at h
    cases h
    intro hcode
    have hle := plan_error_code_le hplan
    rw [hcode] at hle
    exact absurd hle (by decide)
  | ok answer =>
    obtain ⟨v, total⟩ := answer
    have hmax := length_packetFrame_le s v index total
    rw [generate_of_plan hplan] at h
    split_ifs at h with hsize hindex hlong
    · cases h
      exact (by decide : CmdError.size.code ≠ 9#4)
    · cases h
      exact (by decide : CmdError.index.code ≠ 9#4)
    · omega

end

/-- Settles O33: the size and the index check pass, and the frame's length does not. -/
theorem genOverlongFrameEndsInFrameOverflow : Obligations.GenOverlongFrameEndsInFrameOverflow := by
  unfold Obligations.GenOverlongFrameEndsInFrameOverflow
  intro s v total index hplan hsize hindex hlong
  have hgen := generate_of_plan hplan index
  rw [if_neg (Nat.not_lt.mpr hsize), if_neg (Nat.not_le.mpr hindex), if_pos hlong] at hgen
  exact ⟨_, exec_gen_of_error hgen, s.raise_gen_spec _⟩

/-- Settles O34: ERRCODE 9 would need a frame of more than 275 bytes; no other error has that code, and a success has 0. -/
theorem frameOverflowIsUnreachableByDefault : Obligations.FrameOverflowIsUnreachableByDefault := by
  unfold Obligations.FrameOverflowIsUnreachableByDefault
  refine ⟨fun s v total index _ _ _ => length_packetFrame_le s v index total, fun s t index hbuf hexec => ?_⟩
  obtain ⟨r, hgen, rfl⟩ | ⟨frame, -, rfl⟩ := exec_gen_cases hexec
  · exact generate_error_ne_frameOverflow hbuf hgen
  · rw [State.succeed_status]
    exact (by decide : (0#4 : BitVec 4) ≠ 9#4)

/-- Settles O47: GEN leaves the packet's frame, and RESULT and FRAME_LEN are its length. -/
theorem frameLengthCountsControlBytes : Obligations.FrameLengthCountsControlBytes := by
  unfold Obligations.FrameLengthCountsControlBytes
  intro s v total index hplan hsize hindex hfits
  obtain ⟨t, hexec, hdone, hlen, -, -, -⟩ := genCompletesWithThePacketFrame s v total index hplan hsize hindex hfits
  have hmax := length_packetFrame_le s v index total
  have hresult : t.result.toNat = (packetFrame s v index total).length := by
    rw [hdone.result, BitVec.toNat_ofNat]
    omega
  exact ⟨t, hexec, hresult.trans hlen.symm, hlen.trans (length_packetFrame s v index total)⟩

/-- Settles O46: between the markers stand the two length bytes, which are no control bytes, and an escaped sequence. -/
theorem framesAreWellFormed : Obligations.FramesAreWellFormed := by
  unfold Obligations.FramesAreWellFormed
  intro s t index hexec hdone
  obtain ⟨v, total, -, -, -, hframe⟩ := exec_gen_done hexec hdone
  have hlow := not_isControl_length (length_makeBody_le s v index total)
  have hesc := escapedBytes_escape
    (contentType v :: makeSubpacket (total + headerPadding v) index (makeBody s v index total))
  have hbytes := (hesc.cons_plain hlow).cons_plain (show ¬isControl 0x00#8 = true by decide)
  refine ⟨_, hframe.trans (packetFrame_eq s v index total), by simp, fun k b hb => ?_⟩
  obtain ⟨h1, h3, hpair⟩ := hbytes k b hb
  refine ⟨h1, h3, fun h2 => ⟨?_, hpair h2⟩⟩
  subst h2
  obtain ⟨-, hlowEsc, -⟩ := (not_isControl_iff _).mp hlow
  match k, hb with
  | 0, hb => cases hb
  | 1, hb => exact absurd (Option.some.inj hb) hlowEsc
  | k + 2, _ => exact Nat.le_add_left 2 k

/-- Settles O48: the bytes between start and end marker are the escaped content type and sub-packet, and un-escaping gives
them back. -/
theorem frameUnescapesToItsSubpacket : Obligations.FrameUnescapesToItsSubpacket := by
  unfold Obligations.FrameUnescapesToItsSubpacket
  intro s t index hexec hdone
  obtain ⟨v, total, hplan, hsize, hindex, hframe⟩ := exec_gen_done hexec hdone
  refine ⟨v, total, hplan, ?_⟩
  intro whole body ct pre
  have hct : contentType v = ct := contentType_of_variant (plan_variant hplan)
  have hsub : makeSubpacket whole index body = pre ++ [pre.foldl (fun x y => x ^^^ y) 0x00#8] := by
    simp only [makeSubpacket, subpacketPrefix, be16_eq_mod]
    rfl
  have hlast : index ≤ 511 := by
    have hstart := (lt_packetCount_iff whole index).mp hindex
    omega
  refine ⟨hsize, hlast, length_makeBody_pos hplan hindex, length_makeBody_le s v index total, ?_, ?_⟩
  · rw [hframe, dropLast_drop_packetFrame, unescape_escape, ← hct, ← hsub]
  · rw [hframe, take_packetFrame]

end Sys2Proof.Machine
end

section
/-! PROOF. The errors that need no payload memory (60_exceptions.md R300 to R305, R316): ILLEGAL_CMD, BAD_VARIANT and
NO_COLORS are decided by the command word and the CFG registers alone; and no step stops the machine. -/

namespace Sys2Proof.Machine

/-! The step that completes an illegal word, and the steps of every state. -/

/-- Settles O7: the step of a due word that does not decode is its error completion. -/
theorem illegalWordCompletesWithIllegalCmd : Obligations.IllegalWordCompletesWithIllegalCmd := by
  unfold Obligations.IllegalWordCompletesWithIllegalCmd
  intro s w e hdue hdec
  obtain ⟨herror, -⟩ := s.raise_query_spec { error := .illegalCmd, info := w.toNat }
  refine ⟨_, (step_of_due hdue).trans (runWord_of_illegal hdec s), herror, ?_⟩
  rw [herror.errInfo, BitVec.ofNat_toNat, BitVec.setWidth_eq]

/-- Settles O13: an idle block takes the host's turn, a running command counts down, and a due word completes. -/
theorem machineNeverStops : Obligations.MachineNeverStops := by
  unfold Obligations.MachineNeverStops
  intro s
  match hfly : s.inflight with
  | none => exact ⟨_, step_of_idle hfly⟩
  | some { word := w, remaining := 0 } =>
    obtain ⟨t, hstep, -⟩ := step_of_due_ends hfly
    exact ⟨t, hstep⟩
  | some { word := w, remaining := n + 1 } => exact ⟨_, step_of_running hfly⟩

section
variable {s t : State}

/-! The reserved variant (10_state.md R45, 60_exceptions.md R304). -/

theorem State.variant_reserved (h : s.cfgVariant = 3#2) : s.variant = none := by simp [State.variant, h]

theorem plan_of_reservedVariant (h : s.cfgVariant = 3#2) : plan s = .error { error := .badVariant, info := 0 } := by
  simp only [plan, State.variant_reserved h]

theorem exec_qpad_of_reservedVariant (h : s.cfgVariant = 3#2) :
    exec .qpad s = .next (s.raise false { error := .badVariant, info := 0 }) := by
  simp only [exec, execQpad, State.variant_reserved h]

/-- QPAD makes no plan, and ends in the error in which the plan of the other commands ends. -/
theorem exec_of_reservedVariant (h : s.cfgVariant = 3#2) (i : Instr) :
    ∃ t, exec i s = .next t ∧ ErrorCompletion s t CmdError.badVariant.code 0 := by
  by_cases hi : i = .qpad
  · obtain ⟨herror, -⟩ := s.raise_query_spec { error := .badVariant, info := 0 }
    exact ⟨_, hi ▸ exec_qpad_of_reservedVariant h, herror⟩
  · exact exec_of_planError (plan_of_reservedVariant h) hi

/-- A GEN that ends in an error, whichever it is, leaves no frame (60_exceptions.md R301). -/
theorem exec_gen_frameLen_of_err {index : Nat} (h : exec (.gen index) s = .next t) (herr : t.status.err = true) :
    t.frameLen = 0#9 := by
  obtain ⟨r, -, rfl⟩ | ⟨frame, -, rfl⟩ := exec_gen_cases h
  · obtain ⟨-, hlen, -⟩ := s.raise_gen_spec r
    exact hlen
  · cases herr

theorem Instr.query_of_ne_gen {i : Instr} (h : ∀ n, i ≠ .gen n) : i = .qtotal ∨ i = .qpad ∨ i = .qcount := by
  cases i with
  | qtotal => exact .inl rfl
  | qpad => exact .inr (.inl rfl)
  | qcount => exact .inr (.inr rfl)
  | gen n => exact absurd rfl (h n)

/-! A phrase without colours (42_glyph_renderer.md R232, 60_exceptions.md R305). -/

theorem scanChar_of_noColors (h : s.colorsLen = 0) (i : Nat) :
    scanChar s i = some { error := .noColors, info := i } := by
  rw [scanChar, if_pos h]

/-- The colour list is asked for at the first character, so position 0 is the one reported. -/
theorem validationScan_of_noColors (hcolors : s.colorsLen = 0) (hphrase : 0 < s.phraseLen) :
    validationScan s = some { error := .noColors, info := 0 } :=
  validationScan_of_first hphrase (fun _ hj => absurd hj (Nat.not_lt_zero _)) (scanChar_of_noColors hcolors 0)

end

/-- Settles O28: every command ends in BAD_VARIANT, and whether it clears the frame depends on its being GEN alone. -/
theorem reservedVariantEndsInBadVariant : Obligations.ReservedVariantEndsInBadVariant := by
  unfold Obligations.ReservedVariantEndsInBadVariant
  intro s i hvariant
  obtain ⟨t, hexec, herror⟩ := exec_of_reservedVariant hvariant i
  refine ⟨t, hexec, herror, ?gen, fun hquery => exec_query_sameFrame (Instr.query_of_ne_gen hquery) hexec⟩
  case gen =>
    rintro ⟨n, rfl⟩
    exact exec_gen_frameLen_of_err hexec (by rw [herror.status])

/-- Settles O29: the scan raises NO_COLORS at position 0, and every command but QPAD ends in what the scan raises. -/
theorem textWithoutColoursEndsInNoColors : Obligations.TextWithoutColoursEndsInNoColors := by
  unfold Obligations.TextWithoutColoursEndsInNoColors
  intro s i hvariant hcolors hphrase hi
  have hnone : s.colorsLen = 0 := congrArg BitVec.toNat hcolors
  have hsome : 0 < s.phraseLen := Nat.pos_of_ne_zero fun h => hphrase (BitVec.eq_of_toNat_eq h)
  exact exec_of_planError (plan_of_scanError hvariant (validationScan_of_noColors hnone hsome)) hi

end Sys2Proof.Machine
end

section
/-! PROOF. The reset event (70_reset_and_hazards.md R340 to R342): every register is 0 after it, the command in flight
is gone, and of the memories GLYPH_ROM alone keeps its content. -/

namespace Sys2Proof.Machine

@[simp] theorem State.act_reset (s : State) : s.act .reset = s.resetEvent := rfl

/-! The registers. -/

/-- No command is in flight and every flag is clear, so every bit of STATUS is 0 (10_state.md R36 to R41). -/
theorem State.statusWord_resetEvent (s : State) : s.resetEvent.statusWord = 0#32 := by
  have hidle : s.resetEvent.busy = false := rfl
  simp [State.statusWord, flagBit, hidle, State.reset]

theorem State.regValue_resetEvent (s : State) (r : Reg) : s.resetEvent.regValue r = 0#32 := by
  cases r with
  | status => exact s.statusWord_resetEvent
  | _ => rfl

/-- Settles O19: each register has its reset value, and so has the place of the command in flight. -/
theorem resetEventClearsEveryRegister : Obligations.ResetEventClearsEveryRegister := by
  unfold Obligations.ResetEventClearsEveryRegister
  intro s r
  rw [State.act_reset]
  exact ⟨s.regValue_resetEvent r, s.resetEvent_status, s.resetEvent_inflight⟩

/-! The memories. -/

section
variable {s t : State} {a : Nat}

/-- An unwritten GLYPH_ROM byte reads as the parameter GLYPH_ROM_CONTENT, which no draw changes (10_state.md R58;
log 5). -/
theorem State.byteAt_congr_of_inRom (h : inRom a = true) (hread : t.mem.read a = s.mem.read a) :
    t.byteAt a = s.byteAt a := by
  simp only [State.byteAt, State.unwritten, hread, if_pos h]

theorem State.read_resetEvent (s : State) (a : Nat) :
    s.resetEvent.mem.read a = if inRom a then s.mem.read a else none :=
  Memory.read_keep s.mem inRom a

theorem State.byteAt_resetEvent_of_inRom (h : inRom a = true) : s.resetEvent.byteAt a = s.byteAt a :=
  State.byteAt_congr_of_inRom h ((s.read_resetEvent a).trans (if_pos h))

theorem State.read_resetEvent_of_not_inRom (h : ¬inRom a = true) : s.resetEvent.mem.read a = none :=
  (s.read_resetEvent a).trans (if_neg h)

end

/-- A reset taken in a step of latency: that step's state is the reset event's, whatever latency was left (R341). -/
theorem step_of_running_reset {s : State} {w : Word} {n : Nat} {rest : List HostAction}
    (hfly : s.inflight = some { word := w, remaining := n + 1 }) (hpend : s.pending = .reset :: rest) :
    step s = .next ({ s with pending := rest } : State).resetEvent := by
  have hturn := State.hostTurn_of_pending (s := { s with inflight := some { word := w, remaining := n } }) hpend
  exact (step_of_running hfly).trans (congrArg _ hturn)

/-- Settles O20: the step is the reset event, which splits the addresses into GLYPH_ROM's and the others. -/
theorem resetEventAbandonsTheCommand : Obligations.ResetEventAbandonsTheCommand := by
  unfold Obligations.ResetEventAbandonsTheCommand
  intro s w n rest hfly hpend
  refine ⟨_, step_of_running_reset hfly hpend, rfl, rfl, rfl, rfl, rfl, fun r hr => ?rom, fun a ha => ?other⟩
  case rom =>
    have hrom : inRom (0x400000 + r) = true := by
      simp only [inRom_iff, romBase, frameBase]
      omega
    exact State.byteAt_resetEvent_of_inRom hrom
  case other =>
    have hrom : ¬inRom a = true := by
      simp only [inRom_iff, romBase, frameBase]
      omega
    exact State.read_resetEvent_of_not_inRom hrom

end Sys2Proof.Machine
end

section
/-! PROOF. The empty Text payload, which reset leaves (70_reset_and_hazards.md R344): it has no character to look up, so
its total is 0 and its one packet is a header of zeros, whatever the memories hold. -/

namespace Sys2Proof.Machine

/-! The plan. -/

section
variable {s : State}

theorem textValid_of_emptyPhrase (h : s.phraseLen = 0) : TextValid s :=
  fun _ hi => absurd hi (by omega)

/-- No character has a span, so the total is 0 under either rule (40_planner.md R152). -/
theorem textTotal_of_emptyPhrase (h : s.phraseLen = 0) : textTotal s = 0 := by
  unfold textTotal
  cases s.params.textTotalRule with
  | gated => simp [gatedSpans, passes, h]
  | perCharX3 => simp [spanSum, h]

theorem plan_of_emptyText (hvariant : s.cfgVariant = 0#2) (hphrase : s.phraseLen = 0) : plan s = .ok (.text, 0) := by
  rw [plan_of_validText hvariant (textValid_of_emptyPhrase hphrase), textTotal_of_emptyPhrase hphrase]

end

/-! The frame. -/

theorem escape_of_plain {l : List Byte} (h : ∀ b ∈ l, ¬isControl b = true) : escape l = l := by
  induction l with
  | nil => rfl
  | cons b rest ih =>
    obtain ⟨hb, hrest⟩ := List.forall_mem_cons.mp h
    rw [escape_cons, escByte_of_plain hb, ih hrest, List.singleton_append]

/-- Zero bytes at the end do not change the XOR-fold (43_framing_engine.md R262). -/
theorem checksum_append_zeros (l : List Byte) (n : Nat) : checksum (l ++ zeros n) = checksum l := by
  induction n with
  | zero => rw [zeros, List.replicate_zero, List.append_nil]
  | succ n ih =>
    rw [zeros, List.replicate_succ', ← List.append_assoc]
    unfold checksum at ih ⊢
    rw [List.foldl_concat, BitVec.xor_zero]
    exact ih

/-- With no content and a total of 0 the body is the Text header's 107 zero bytes, in either layout (41_chunker.md R189,
R190). -/
theorem makeBody_emptyText (s : State) : makeBody s .text 0 0 = zeros 107 := by
  rw [makeBody_zero, Nat.zero_min, content_zero, List.append_nil, header_text]
  cases s.params.hdrLayout <;> rfl

/-- The sub-packet of the empty Text payload before its body: lead, whole size 107, index 0, content length 107
(43_framing_engine.md R260). -/
def emptyTextStart : List Byte := [0x00#8, 0x00#8, 0x6B#8, 0x00#8, 0x00#8, 0x6B#8]

theorem subpacketPrefix_emptyText : subpacketPrefix 107 0 (zeros 107) = emptyTextStart ++ zeros 107 := rfl

/-- The two bytes 0x6B cancel in the checksum, which is then one zero byte after the body's. -/
theorem makeSubpacket_emptyText : makeSubpacket 107 0 (zeros 107) = emptyTextStart ++ zeros 108 := by
  have hsum : checksum emptyTextStart = 0x00#8 := by decide
  rw [makeSubpacket, subpacketPrefix_emptyText, checksum_append_zeros, hsum, List.append_assoc]
  rfl

theorem escape_emptyText : escape (emptyTextStart ++ zeros 108) = emptyTextStart ++ zeros 108 := by
  refine escape_of_plain (List.forall_mem_append.mpr ⟨by decide, fun b hb => ?zero⟩)
  case zero =>
    rw [List.eq_of_mem_replicate hb]
    decide

/-- The content type 02 is the one control byte, and is escaped as 02 06 (43_framing_engine.md R264). -/
theorem packetFrame_emptyText (s : State) :
    packetFrame s .text 0 0 =
      [0x01#8, 0x00#8, 0x73#8, 0x02#8, 0x06#8, 0x00#8, 0x00#8, 0x6B#8, 0x00#8, 0x00#8, 0x6B#8] ++
        List.replicate 108 0x00#8 ++ [0x03#8] := by
  rw [packetFrame_eq, makeBody_emptyText, headerPadding, Config.padText, Nat.zero_add, makeSubpacket_emptyText,
    escape_cons, escape_emptyText]
  rfl

/-- Settles O21: the plan of the empty Text payload is a total of 0, and the frame of its one packet has 120 bytes. -/
theorem emptyTextPayloadNeedsNoMemory : Obligations.EmptyTextPayloadNeedsNoMemory := by
  unfold Obligations.EmptyTextPayloadNeedsNoMemory
  intro s hvariant hphrase hbuf
  have hplan : plan s = .ok (.text, 0) := plan_of_emptyText hvariant (congrArg BitVec.toNat hphrase)
  have hlen : (packetFrame s .text 0 0).length = 120 := by
    rw [packetFrame_emptyText]
    rfl
  obtain ⟨t, hexec, hdone, hframeLen, hframe, -, -⟩ :=
    genCompletesWithThePacketFrame s .text 0 0 hplan (by decide) (by decide) (hlen.trans_le hbuf)
  rw [hlen] at hdone hframeLen
  exact ⟨⟨_, exec_qtotal_of_plan hplan, s.succeed_spec 0⟩,
    ⟨_, exec_qpad_of_variant (State.variant_text hvariant), s.succeed_spec 107⟩,
    ⟨_, exec_qcount_of_plan hplan, s.succeed_spec 1⟩,
    ⟨t, hexec, hdone, BitVec.eq_of_toNat_eq hframeLen, hframe.trans (packetFrame_emptyText s)⟩⟩

end Sys2Proof.Machine
end
